-- ==== Sys2Proof/Word.lean ====
section
/-! DEFINITION. The word, record and register-id types of the APEX pipeline core. -/

namespace Sys2Proof

/-- A word: a register, a data cell, an address, a result (00_scope.md R10 `XLEN`, decision D1).
Its `+`, `-`, `*` are the `wrap` arithmetic of R19 and 41_alu.md R259. -/
abbrev Word := BitVec 32

/-- An instruction record of `REC_BITS` bits (30_encoding.md R130, decision D2). -/
abbrev Record := BitVec 48

/-- A register id: a 4-bit field, so one of the 16 registers (10_state.md R42). -/
abbrev RegId := Fin 16

end Sys2Proof
end

