-- ==== Sys2Proof/Config.lean ====
section
/-! DEFINITION. The implementation parameters of 00_scope.md R10 that are fixed for the machine. The parameter
`SNAPSHOT_ON_BNZ` is a field of State instead, so that both of its settings run (log 8). -/

namespace Sys2Proof.Config

/-- `PC_BASE` (R10, decision D4; PRESUMED, log 7). -/
def pcBase : Word := 4000

/-- `INSN_WIDTH` (R10, decision D4; PRESUMED, log 7). -/
def insnWidth : Nat := 4

/-- `DMEM_WORDS` (R10, decision D5; PRESUMED, log 7). -/
def dmemWords : Nat := 4096

/-- `DUMP_WORDS` (R10, from the source). -/
def dumpWords : Nat := 100

/-- `PROG_CAPACITY` is OPEN and at least 1 (R10, decision D6): this is the capacity less one, and nothing
else is known of it (log 9). -/
opaque progCapacityLessOne : Nat

/-- `PROG_CAPACITY` (R10, decision D6). -/
def progCapacity : Nat := progCapacityLessOne + 1

/-- The default of `SNAPSHOT_ON_BNZ` (R10, decision D11). -/
def snapshotOnBnzDefault : Bool := false

end Sys2Proof.Config
end

