-- ==== Sys2Proof/Syntax.lean ====
section
/-! DEFINITION. The instructions: one constructor per row of the opcode table, with the operands that
30_encoding.md R135 says the row uses. A field the row does not use is no operand (R136): the record and the stage
latches still hold its bits. -/

namespace Sys2Proof

/-- The fifteen instructions of 00_scope.md R2 and the internal NOP of R3. An immediate is the whole signed 32-bit
field (30_encoding.md R133). -/
inductive Instr where
  | movc (rd : RegId) (imm : Word)
  | add (rd rs1 rs2 : RegId)
  | addi (rd rs1 : RegId) (imm : Word)
  | sub (rd rs1 rs2 : RegId)
  | mul (rd rs1 rs2 : RegId)
  | and (rd rs1 rs2 : RegId)
  | or (rd rs1 rs2 : RegId)
  | xor (rd rs1 rs2 : RegId)
  | load (rd rs1 : RegId) (imm : Word)
  | ldr (rd rs1 rs2 : RegId)
  | store (rs1 rs2 : RegId) (imm : Word)
  | halt
  | jump (rs1 : RegId) (imm : Word)
  | bz (imm : Word)
  | bnz (imm : Word)
  | nop
  deriving DecidableEq, Repr

end Sys2Proof
end

