-- ==== Sys2Proof/WellFormed.lean ====
section
/-! DEFINITION. What a loader may present: instructions of the enumeration of 00_scope.md R2. Register ids and
immediates need no check, since their types hold exactly the values the fields can. -/

namespace Sys2Proof

/-- An instruction a program may contain: any but NOP, which is the core's own (30_encoding.md R137, R2). -/
def Instr.wellFormed : Instr → Bool
  | .movc _ _ => true
  | .add _ _ _ => true
  | .addi _ _ _ => true
  | .sub _ _ _ => true
  | .mul _ _ _ => true
  | .and _ _ _ => true
  | .or _ _ _ => true
  | .xor _ _ _ => true
  | .load _ _ _ => true
  | .ldr _ _ _ => true
  | .store _ _ _ => true
  | .halt => true
  | .jump _ _ => true
  | .bz _ => true
  | .bnz _ => true
  | .nop => false

/-- A program is presented as at least one instruction (70_reset_and_hazards.md R371 (b)). -/
def Program.nonempty (p : List Instr) : Bool := decide (0 < p.length)

/-- A program is no longer than the core's capacity (R371 (c)). -/
def Program.fits (p : List Instr) : Bool := decide (p.length ≤ Config.progCapacity)

/-- A program holds no NOP (R371 (d)). -/
def Program.unreserved (p : List Instr) : Bool := p.all Instr.wellFormed

/-- The addresses of a program, and the one after its end, do not wrap (R371 (e), 00_scope.md R10). -/
def Program.addressable (p : List Instr) : Bool :=
  decide (Config.pcBase.toNat + Config.insnWidth * (p.length + 1) < 2 ^ 32)

/-- A program that `Init` does not refuse (R371). -/
def Program.wellFormed (p : List Instr) : Bool :=
  Program.nonempty p && Program.fits p && Program.unreserved p && Program.addressable p

end Sys2Proof
end

