-- ==== Sys2Proof/Decode.lean ====
section
/-! DEFINITION. Decoding a record (30_encoding.md R130 to R138) and, after it, encoding an instruction. -/

namespace Sys2Proof

/-- The sixteen operations, in the order of their codes (30_encoding.md R132). -/
inductive Opcode where
  | movc | add | addi | sub | mul | and | or | xor
  | load | ldr | store | halt | jump | bz | bnz | nop
  deriving DecidableEq, Repr

/-- The operation of a 4-bit code: the table of R132. -/
def opcodeOfCode (c : BitVec 4) : Opcode :=
  match c.toNat with
  | 0 => .movc
  | 1 => .add
  | 2 => .addi
  | 3 => .sub
  | 4 => .mul
  | 5 => .and
  | 6 => .or
  | 7 => .xor
  | 8 => .load
  | 9 => .ldr
  | 10 => .store
  | 11 => .halt
  | 12 => .jump
  | 13 => .bz
  | 14 => .bnz
  | _ => .nop

/-- The 4-bit code of an operation: the table of R132, read the other way. -/
def codeOfOpcode : Opcode → BitVec 4
  | .movc => 0
  | .add => 1
  | .addi => 2
  | .sub => 3
  | .mul => 4
  | .and => 5
  | .or => 6
  | .xor => 7
  | .load => 8
  | .ldr => 9
  | .store => 10
  | .halt => 11
  | .jump => 12
  | .bz => 13
  | .bnz => 14
  | .nop => 15

/-- `op = rec[47:44]` (R138). -/
def opField (r : Record) : Opcode := opcodeOfCode (r.extractLsb' 44 4)

/-- A 4-bit register field. -/
def regOfField (b : BitVec 4) : RegId := ⟨b.toNat, b.isLt⟩

/-- `rd = rec[43:40]` (R138). -/
def rdField (r : Record) : RegId := regOfField (r.extractLsb' 40 4)

/-- `rs1 = rec[39:36]` (R138). -/
def rs1Field (r : Record) : RegId := regOfField (r.extractLsb' 36 4)

/-- `rs2 = rec[35:32]` (R138). -/
def rs2Field (r : Record) : RegId := regOfField (r.extractLsb' 32 4)

/-- `imm = s32(rec[31:0])` (R133, R138). -/
def immField (r : Record) : Word := r.extractLsb' 0 32

/-- The instruction that the five fields of a record or of a stage latch stand for: the opcode alone selects it, and
a field it does not use is ignored (R135, R136). -/
def instrOfFields (op : Opcode) (rd rs1 rs2 : RegId) (imm : Word) : Instr :=
  match op with
  | .movc => .movc rd imm
  | .add => .add rd rs1 rs2
  | .addi => .addi rd rs1 imm
  | .sub => .sub rd rs1 rs2
  | .mul => .mul rd rs1 rs2
  | .and => .and rd rs1 rs2
  | .or => .or rd rs1 rs2
  | .xor => .xor rd rs1 rs2
  | .load => .load rd rs1 imm
  | .ldr => .ldr rd rs1 rs2
  | .store => .store rs1 rs2 imm
  | .halt => .halt
  | .jump => .jump rs1 imm
  | .bz => .bz imm
  | .bnz => .bnz imm
  | .nop => .nop

/-- The decoder: total on every 48-bit record (R136, R138). -/
def decode (r : Record) : Instr :=
  instrOfFields (opField r) (rdField r) (rs1Field r) (rs2Field r) (immField r)

/-- The record whose low `nbits` bits are those of `w` and whose other bits are 0. -/
def recordOfWord (nbits w : Nat) : Record := BitVec.ofNat 48 (w % 2 ^ nbits)

/-- The instruction the decoder reads from the word `w` of `nbits` bits; a word wider than a record is no
instruction (R130: one length, 48 bits). -/
def decodeTableWord (nbits w : Nat) : Option Instr :=
  if nbits ≤ 48 then some (decode (recordOfWord nbits w)) else none

/-- A record from its five fields (R131). -/
def recordOfFields (op : Opcode) (rd rs1 rs2 : RegId) (imm : Word) : Record :=
  codeOfOpcode op ++ BitVec.ofNat 4 rd ++ BitVec.ofNat 4 rs1 ++ BitVec.ofNat 4 rs2 ++ imm

/-- The record a loader supplies for an instruction: the fields it does not use are 0 (R135, R136). -/
def encode : Instr → Record
  | .movc rd imm => recordOfFields .movc rd 0 0 imm
  | .add rd rs1 rs2 => recordOfFields .add rd rs1 rs2 0
  | .addi rd rs1 imm => recordOfFields .addi rd rs1 0 imm
  | .sub rd rs1 rs2 => recordOfFields .sub rd rs1 rs2 0
  | .mul rd rs1 rs2 => recordOfFields .mul rd rs1 rs2 0
  | .and rd rs1 rs2 => recordOfFields .and rd rs1 rs2 0
  | .or rd rs1 rs2 => recordOfFields .or rd rs1 rs2 0
  | .xor rd rs1 rs2 => recordOfFields .xor rd rs1 rs2 0
  | .load rd rs1 imm => recordOfFields .load rd rs1 0 imm
  | .ldr rd rs1 rs2 => recordOfFields .ldr rd rs1 rs2 0
  | .store rs1 rs2 imm => recordOfFields .store 0 rs1 rs2 imm
  | .halt => recordOfFields .halt 0 0 0 0
  | .jump rs1 imm => recordOfFields .jump 0 rs1 0 imm
  | .bz imm => recordOfFields .bz 0 0 0 imm
  | .bnz imm => recordOfFields .bnz 0 0 0 imm
  | .nop => recordOfFields .nop 0 0 0 0

end Sys2Proof
end

