-- ==== Sys2Proof/Machine/State.lean ====
section
/-! DEFINITION. The state of the core (10_state.md), the reasons a step can stop, and the state after reset. -/

namespace Sys2Proof.Machine

/-- The five stage procedures of a cycle, in the order they are evaluated (40_pipeline.md R172). -/
inductive Stage where
  | writeback | memory | execute | decode | fetch
  deriving DecidableEq, Repr

/-- The branch-pending indicator (10_state.md R63): NONE, ARMED, RESOLVED. -/
inductive BranchPending where
  | none | armed | resolved
  deriving DecidableEq, Repr

/-- The cause of an `OutOfRangeAccess` (10_state.md R66, 60_exceptions.md R331), in the order of the codes 0, 1, 2. -/
inductive FaultKind where
  | dataLoad | dataStore | controlTarget
  deriving DecidableEq, Repr

/-- The fault record (10_state.md R66). -/
structure FaultRecord where
  valid : Bool
  kind : FaultKind
  pc : Word
  addr : Word
  deriving DecidableEq, Repr

/-- A stage latch (10_state.md R50). `op`, `rd`, `rs1`, `rs2`, `imm` are the record's fields, used or not. -/
structure Latch where
  op : Opcode
  rd : RegId
  rs1 : RegId
  rs2 : RegId
  imm : Word
  pc : Word
  rs1Value : Word
  rs2Value : Word
  result : Word
  memAddress : Word
  busy : Bool
  stalled : Bool
  fault : Bool
  deriving DecidableEq, Repr

/-- The cleared latch (10_state.md R52): a NOP with every other field 0. -/
def Latch.cleared : Latch where
  op := .nop
  rd := 0
  rs1 := 0
  rs2 := 0
  imm := 0
  pc := 0
  rs1Value := 0
  rs2Value := 0
  result := 0
  memAddress := 0
  busy := false
  stalled := false
  fault := false

/-- The cleared latch marked busy: pipeline fill at power-on (10_state.md R56, R68). -/
def Latch.warmUp : Latch := { Latch.cleared with busy := true }

/-- A word cell of Data Memory: its word index and its value (20_memory.md R101). -/
abbrev Cell := Nat × Word

/-- Data Memory as the cells that are not 0 (20_memory.md R100, R105; log 5). An unlisted cell reads 0, its value
after `Init` (10_state.md R68). -/
abbrev Memory := List Cell

/-- The state of the core: everything of 10_state.md R68, the parameter `snapshotOnBnz` and the model's own `stage`. -/
structure State where
  /-- The general registers (R40). -/
  x : Vector Word 16
  /-- The validity table: `true` means a write is pending (R43). -/
  valid : Vector Bool 16
  /-- The forwarding table (R45). -/
  fwd : Vector Word 16
  /-- The program counter (R46). -/
  pc : Word
  /-- The Program Store; its length is `N` (R49). -/
  prog : List Record
  /-- Data Memory (20_memory.md R100). -/
  dmem : Memory
  /-- The Fetch latch (R50). -/
  F : Latch
  /-- The Decode latch (R50). -/
  D : Latch
  /-- The Execute latch (R50). -/
  E : Latch
  /-- The Memory latch (R50). -/
  M : Latch
  /-- The Writeback latch (R50). -/
  W : Latch
  /-- Cycles elapsed (R60). -/
  clock : Nat
  /-- Logical instructions completed (R61). -/
  insCompleted : Int
  /-- Set once a HALT retires (R62). -/
  halted : Bool
  /-- The branch-pending indicator (R63). -/
  bp : BranchPending
  /-- The delayed branch condition: `true` means the result was zero (R64). -/
  snapshot : Bool
  /-- The zero flag `Z` (R65). -/
  z : Bool
  /-- The fault record (R66). -/
  fault : FaultRecord
  /-- The parameter `SNAPSHOT_ON_BNZ` (00_scope.md R10); no rule writes it (log 8). -/
  snapshotOnBnz : Bool
  /-- THE MODEL'S OWN: the stage procedure being evaluated; `writeback` at every cycle boundary (log 2). -/
  stage : Stage
  deriving DecidableEq, Repr

/-- The faults of a step: none. The core's one fault, `OutOfRangeAccess`, is taken as a next state that holds the
fault record (60_exceptions.md R333), so no instruction stops the machine this way; being empty is safe (log 6). -/
inductive Fault where
  deriving DecidableEq, Repr

/-- The refusals of a step. -/
inductive Refusal where
  /-- Raised by an arm of `exec` whose instruction has no meaning yet; safe. No arm raises it now. -/
  | notModelled (mnemonic : String)
  deriving DecidableEq, Repr

/-- The core after `Init` (10_state.md R68, 70_reset_and_hazards.md R370), with nothing yet in the Program Store
(log 3). -/
def State.reset : State where
  x := Vector.replicate 16 0
  valid := Vector.replicate 16 false
  fwd := Vector.replicate 16 0
  pc := Config.pcBase
  prog := []
  dmem := []
  F := Latch.cleared
  D := Latch.warmUp
  E := Latch.warmUp
  M := Latch.warmUp
  W := Latch.warmUp
  clock := 0
  insCompleted := 0
  halted := false
  bp := .none
  snapshot := false
  z := false
  fault := { valid := false, kind := .dataLoad, pc := 0, addr := 0 }
  snapshotOnBnz := Config.snapshotOnBnzDefault
  stage := .writeback

end Sys2Proof.Machine
end

