-- ==== Sys2Proof/Machine/Ops.lean ====
section
/-! DEFINITION. The named operations over the state: Data Memory, the updates of one field, what a latch is, the
shared parts of the stage procedures, raising the fault, and the redirect of a control transfer. -/

namespace Sys2Proof.Machine

/-! ## Data Memory (20_memory.md) -/

/-- The word in cell `a`; a cell that is not listed reads 0 (10_state.md R68). -/
def Memory.read : Memory → Nat → Word
  | [], _ => 0
  | (b, w) :: m, a => if a = b then w else Memory.read m a

/-- The memory with the word `v` in cell `a`, in canonical form: indices rising and no 0 listed. -/
def Memory.write : Memory → Nat → Word → Memory
  | [], a, v => if v = 0 then [] else [(a, v)]
  | (b, w) :: m, a, v =>
    if a < b then (if v = 0 then (b, w) :: m else (a, v) :: (b, w) :: m)
    else if a = b then (if v = 0 then m else (a, v) :: m)
    else (b, w) :: Memory.write m a v

/-- The canonical form: cells in rising order, each below `DMEM_WORDS`, none holding 0. -/
abbrev Memory.wf (m : Memory) : Prop :=
  m.Pairwise (fun c d => c.1 < d.1) ∧ ∀ c ∈ m, c.1 < Config.dmemWords ∧ c.2 ≠ 0

/-- An effective address names a cell (20_memory.md R102): unsigned, below `DMEM_WORDS`. -/
def inRange (a : Word) : Bool := decide (a.toNat < Config.dmemWords)

/-! ## Updates of one field -/

def State.atStage (s : State) (g : Stage) : State := { s with stage := g }

/-- `x[r] <- v`. -/
def State.setReg (s : State) (r : RegId) (v : Word) : State := { s with x := s.x.set r v }

/-- `valid[r] <- b`. -/
def State.setValid (s : State) (r : RegId) (b : Bool) : State := { s with valid := s.valid.set r b }

/-- `fwd[r] <- v`. -/
def State.setFwd (s : State) (r : RegId) (v : Word) : State := { s with fwd := s.fwd.set r v }

def State.setPc (s : State) (a : Word) : State := { s with pc := a }

def State.setProg (s : State) (p : List Record) : State := { s with prog := p }

def State.setMem (s : State) (m : Memory) : State := { s with dmem := m }

def State.setF (s : State) (l : Latch) : State := { s with F := l }

def State.setD (s : State) (l : Latch) : State := { s with D := l }

def State.setE (s : State) (l : Latch) : State := { s with E := l }

def State.setM (s : State) (l : Latch) : State := { s with M := l }

def State.setW (s : State) (l : Latch) : State := { s with W := l }

/-- `ins_completed <- ins_completed + n`. -/
def State.count (s : State) (n : Int) : State := { s with insCompleted := s.insCompleted + n }

def State.setHalted (s : State) : State := { s with halted := true }

def State.setBp (s : State) (b : BranchPending) : State := { s with bp := b }

def State.setSnapshot (s : State) (b : Bool) : State := { s with snapshot := b }

def State.setZ (s : State) (b : Bool) : State := { s with z := b }

def State.setFault (s : State) (f : FaultRecord) : State := { s with fault := f }

/-- The end of a cycle: `clock <- clock + 1` (40_pipeline.md R172), and the next procedure is Writeback. -/
def State.endCycle (s : State) : State := { s with clock := s.clock + 1, stage := .writeback }

/-- `D.stalled <- b`. -/
def State.stallD (s : State) (b : Bool) : State := s.setD { s.D with stalled := b }

/-- `F.stalled <- b`. -/
def State.stallF (s : State) (b : Bool) : State := s.setF { s.F with stalled := b }

/-! ## Latches -/

/-- A latch is live: its stage acts on its occupant (40_pipeline.md R171). -/
def Latch.live (l : Latch) : Bool := !l.busy && !l.stalled && decide (l.op ≠ .nop)

/-- A MUL that has done its first Execute cycle and whose second is due (10_state.md R56, 40_pipeline.md R180). -/
def Latch.mulPending (l : Latch) : Bool := decide (l.op = .mul) && l.busy && !l.stalled

/-- The instruction a latch holds. -/
def Latch.instr (l : Latch) : Instr := instrOfFields l.op l.rd l.rs1 l.rs2 l.imm

/-- The latch Fetch builds from the record at address `a` (40_pipeline.md R176, 30_encoding.md R138). -/
def latchOfRecord (r : Record) (a : Word) : Latch :=
  { Latch.cleared with
    op := opField r, rd := rdField r, rs1 := rs1Field r, rs2 := rs2Field r, imm := immField r, pc := a }

/-- `DST_WRITERS` (40_pipeline.md R221, R225): the operations that write a register in Writeback. -/
def writesRegister : Opcode → Bool
  | .movc => true
  | .add => true
  | .addi => true
  | .sub => true
  | .mul => true
  | .and => true
  | .or => true
  | .xor => true
  | .load => true
  | .ldr => true
  | .store => false
  | .halt => false
  | .jump => false
  | .bz => false
  | .bnz => false
  | .nop => false

/-- A live writer of register `r`. -/
def Latch.writes (l : Latch) (r : RegId) : Bool := l.live && writesRegister l.op && decide (l.rd = r)

/-! ## Instruction addresses (00_scope.md R20) -/

/-- `wrap(a - PC_BASE)`. -/
def offsetOf (a : Word) : Nat := (a - Config.pcBase).toNat

/-- `a` is aligned (R20, 20_memory.md R107). -/
def aligned (a : Word) : Bool := decide (offsetOf a % Config.insnWidth = 0)

/-- The Program Store index of `a` (R20). -/
def idx (a : Word) : Nat := offsetOf a / Config.insnWidth

/-- A control target is valid in a program of `n` records: aligned and of index at most `n` (43_control.md R303). -/
def validTarget (n : Nat) (t : Word) : Bool := aligned t && decide (idx t ≤ n)

/-- The count correction of a control transfer (43_control.md R304). -/
def correction (target self : Word) : Int := (idx target : Int) - (idx self : Int) - 1

/-! ## Chaining outcomes -/

/-- Go on with `k` where an outcome is a next state; a stop stays. -/
def andThen (o : Host.Outcome State Fault Refusal) (k : State → Host.Outcome State Fault Refusal) :
    Host.Outcome State Fault Refusal :=
  match o with
  | .next s => k s
  | .fault r => .fault r
  | .refused r => .refused r

/-! ## Taking the fault (60_exceptions.md R333) -/

/-- `raise OutOfRangeAccess(kind, pc, addr)`: the fault record is written and nothing else. That the rest of the
cycle is not evaluated is in the cycle (40_pipeline.md R172). There is no return from it (R336). -/
def raise (kind : FaultKind) (pc addr : Word) (s : State) : State :=
  s.setFault { valid := true, kind := kind, pc := pc, addr := addr }

/-! ## Fetch -/

/-- What Fetch does once `F` holds what it read (40_pipeline.md R177): hold, or advance the pc and copy `D <- F`. -/
def advanceFetch (s : State) : State :=
  if s.D.stalled then s else (s.setPc (s.pc + BitVec.ofNat 32 Config.insnWidth)).setD s.F

/-! ## Decode -/

/-- Decode's copy `E <- D` (40_pipeline.md R181, R187). -/
def leaveDecode (s : State) : State := s.setE s.D

/-- The record the HALT rewrite writes (43_control.md R301): NOP with every field 0. -/
def nopRecord : Record := encode .nop

/-- The HALT rewrite (43_control.md R301): every record after index `h` becomes the NOP record. -/
def rewriteAfter (p : List Record) (h : Nat) : List Record :=
  p.take (h + 1) ++ List.replicate (p.length - (h + 1)) nopRecord

/-! ## Execute -/

/-- Execute's copy `M <- E` (40_pipeline.md R201, R204). -/
def leaveExecute (s : State) : State := s.setM s.E

/-- `publish(v)` for the destination `rd` (40_pipeline.md R202). -/
def publish (rd : RegId) (v : Word) (s : State) : State :=
  ((s.setE { s.E with result := v }).setFwd rd v).setValid rd true

/-- `redirect(target, is_jump)` (43_control.md R302): the pc, the flush, the stalls and the count. -/
def redirect (target : Word) (isJump : Bool) (s : State) : State :=
  (((s.setPc target).setF { Latch.cleared with stalled := isJump }).setD { Latch.cleared with stalled := true }).count
    (correction target s.E.pc)

/-! ## Memory -/

/-- Memory's copy `W <- M` (40_pipeline.md R210, R213). -/
def leaveMemory (s : State) : State := s.setW s.M

/-- The Memory stage of an instruction that accesses no data (40_pipeline.md R211 to R213): a deferred
control-target fault is raised and nothing is copied; otherwise `action`, then `W <- M`. -/
def passMemory (action : State → State) (s : State) : State :=
  if s.M.fault then raise .controlTarget s.M.pc s.M.result s else leaveMemory (action s)

/-- The Memory stage of LOAD, LDR and STORE (40_pipeline.md R214, 42_loadstore.md R284): out of range raises
`kind` and touches nothing. -/
def accessMemory (kind : FaultKind) (action : State → State) (s : State) : State :=
  if s.M.fault || inRange s.M.memAddress then passMemory action s else raise kind s.M.pc s.M.memAddress s

/-- The word LOAD and LDR read: `MemRead(M.mem_address, 1)`. -/
def loadedWord (s : State) : Word := Memory.read s.dmem s.M.memAddress.toNat

/-! ## Writeback -/

/-- What Writeback does when nothing retires (40_pipeline.md R223): a resolved branch's stall is released. -/
def bubbleWriteback (s : State) : State :=
  if s.bp = .resolved then (s.stallD false).setBp .none else s

/-- Retirement of an instruction without a destination (40_pipeline.md R224). -/
def retire (s : State) : State := s.count 1

/-- Retirement of a destination writer (40_pipeline.md R221, R222, R224): the register is written, and its pending
flag is cleared unless `M` holds a younger live writer of it. -/
def retireWriter (rd : RegId) (s : State) : State :=
  let t := s.setReg rd s.W.result
  retire (if s.M.writes rd then t else t.setValid rd false)

end Sys2Proof.Machine
end

