-- ==== Sys2Proof/Machine/Flags.lean ====
section
/-! DEFINITION. The zero flag, the delayed branch snapshot and the branch-pending indicator. -/

namespace Sys2Proof.Machine

/-- `Z <- (v = 0)` (41_alu.md R258). -/
def setZero (v : Word) (s : State) : State := s.setZ (decide (v = 0))

/-- `snapshot <- Z` (43_control.md R311). -/
def refreshSnapshot (s : State) : State := s.setSnapshot s.z

/-- Decode's action for BZ: refresh, then arm (43_control.md R311, R312). -/
def armAfterRefresh (s : State) : State := (refreshSnapshot s).setBp .armed

/-- Decode's action for BNZ: refresh only under `SNAPSHOT_ON_BNZ`, then arm (43_control.md R311, R312). -/
def armWithParameter (s : State) : State := (if s.snapshotOnBnz then refreshSnapshot s else s).setBp .armed

/-- BZ is taken when the snapshotted result was zero (43_control.md R310). -/
def takenIfZero (s : State) : Bool := s.snapshot

/-- BNZ is taken when the snapshotted result was not zero (43_control.md R310). -/
def takenIfNonzero (s : State) : Bool := !s.snapshot

end Sys2Proof.Machine
end

