-- ==== Sys2Proof/Machine/Operands.lean ====
section
/-! DEFINITION. Operands: the forwarding multiplexer, the load-use hazard, Decode's operand read, and the effective
addresses and control targets Execute computes. -/

namespace Sys2Proof.Machine

/-- The forwarding multiplexer (40_pipeline.md R190). -/
def operand (s : State) (r : RegId) : Word := if s.valid[r] then s.fwd[r] else s.x[r]

/-- The value Decode materializes for a source field; 0 where the field is no source (40_pipeline.md R185). -/
def operandOrZero (s : State) : Option RegId → Word
  | some r => operand s r
  | none => 0

/-- The load-to-use hazard on one source register (40_pipeline.md R183). -/
def loadUse (s : State) (r : RegId) : Bool :=
  s.valid[r] && s.E.live && decide (s.E.op = .load) && decide (s.E.rd = r)

/-- The hazard on a field that may be no source. -/
def loadUseOf (s : State) : Option RegId → Bool
  | some r => loadUse s r
  | none => false

/-- Decode of a live occupant with the sources `r1` (field rs1) and `r2` (field rs2) and its own `action`
(40_pipeline.md R183 to R187): on a load-use hazard it stalls and passes a bubble; otherwise it reads the operands,
acts, and passes the occupant on. -/
def decodeWith (r1 r2 : Option RegId) (action : State → State) (s : State) : State :=
  if loadUseOf s r1 || loadUseOf s r2 then leaveDecode (s.stallD true)
  else
    leaveDecode (action (s.setD { s.D with rs1Value := operandOrZero s r1, rs2Value := operandOrZero s r2 }))

/-- `wrap(v + imm)`: the address of LOAD and STORE, the targets of JUMP, BZ and BNZ (42_loadstore.md R283,
43_control.md R305, R310). -/
def plusImm (v imm : Word) : Word := v + imm

/-- `wrap(base + index)`: the address of LDR (42_loadstore.md R283). -/
def plusIndex (base index : Word) : Word := base + index

/-- Execute keeps the effective address in `E.mem_address` (42_loadstore.md R283). -/
def setAddress (a : Word) (s : State) : State := s.setE { s.E with memAddress := a }

/-- Execute keeps the control target in `E.result` (43_control.md R305, R313). -/
def setTarget (t : Word) (s : State) : State := s.setE { s.E with result := t }

/-- Execute marks a control target it rejects (43_control.md R303; raised in Memory). -/
def deferFault (s : State) : State := s.setE { s.E with fault := true }

end Sys2Proof.Machine
end

