-- ==== Sys2Proof/Machine/Alu.lean ====
section
/-! DEFINITION. The meanings of MOVC, ADD, ADDI, SUB, MUL, AND, OR and XOR (41_alu.md): what the instruction does in
the stage that is being evaluated, its occupant being the latch of that stage. -/

namespace Sys2Proof.Machine

/-- The single Execute cycle of an instruction that writes no flag (41_alu.md R250, R255 to R257). -/
def executeResult (rd : RegId) (v : Word) (s : State) : State := leaveExecute (publish rd v s)

/-- The single Execute cycle of an instruction that writes `Z` (41_alu.md R251 to R253, R258). -/
def executeResultZ (rd : RegId) (v : Word) (s : State) : State := leaveExecute (setZero v (publish rd v s))

/-- MUL's first Execute cycle (41_alu.md R254): busy, and the copy into `M` is a bubble. -/
def executeMulFirst (s : State) : State := leaveExecute (s.setE { s.E with busy := true })

/-- MUL's second Execute cycle (40_pipeline.md R200): the result, the flag, the release of Decode. -/
def executeMulSecond (rd : RegId) (v : Word) (s : State) : State :=
  let t := setZero v (publish rd v s)
  leaveExecute ((t.setE { t.E with busy := false }).stallD false)

/-- MOVC (R250). -/
def execMovc (rd : RegId) (imm : Word) (s : State) : Host.Outcome State Fault Refusal :=
  match s.stage with
  | .fetch => .next (advanceFetch s)
  | .decode => .next (decodeWith none none id s)
  | .execute => .next (executeResult rd imm s)
  | .memory => .next (passMemory id s)
  | .writeback => .next (retireWriter rd s)

/-- ADD (R251). -/
def execAdd (rd rs1 rs2 : RegId) (s : State) : Host.Outcome State Fault Refusal :=
  match s.stage with
  | .fetch => .next (advanceFetch s)
  | .decode => .next (decodeWith (some rs1) (some rs2) id s)
  | .execute => .next (executeResultZ rd (s.E.rs1Value + s.E.rs2Value) s)
  | .memory => .next (passMemory id s)
  | .writeback => .next (retireWriter rd s)

/-- ADDI (R252). -/
def execAddi (rd rs1 : RegId) (imm : Word) (s : State) : Host.Outcome State Fault Refusal :=
  match s.stage with
  | .fetch => .next (advanceFetch s)
  | .decode => .next (decodeWith (some rs1) none id s)
  | .execute => .next (executeResultZ rd (plusImm s.E.rs1Value imm) s)
  | .memory => .next (passMemory id s)
  | .writeback => .next (retireWriter rd s)

/-- SUB (R253). -/
def execSub (rd rs1 rs2 : RegId) (s : State) : Host.Outcome State Fault Refusal :=
  match s.stage with
  | .fetch => .next (advanceFetch s)
  | .decode => .next (decodeWith (some rs1) (some rs2) id s)
  | .execute => .next (executeResultZ rd (s.E.rs1Value - s.E.rs2Value) s)
  | .memory => .next (passMemory id s)
  | .writeback => .next (retireWriter rd s)

/-- MUL (R254): two Execute cycles, told apart by `E.busy`. -/
def execMul (rd rs1 rs2 : RegId) (s : State) : Host.Outcome State Fault Refusal :=
  match s.stage with
  | .fetch => .next (advanceFetch s)
  | .decode => .next (decodeWith (some rs1) (some rs2) id s)
  | .execute =>
    .next (if s.E.busy then executeMulSecond rd (s.E.rs1Value * s.E.rs2Value) s else executeMulFirst s)
  | .memory => .next (passMemory id s)
  | .writeback => .next (retireWriter rd s)

/-- AND (R255). -/
def execAnd (rd rs1 rs2 : RegId) (s : State) : Host.Outcome State Fault Refusal :=
  match s.stage with
  | .fetch => .next (advanceFetch s)
  | .decode => .next (decodeWith (some rs1) (some rs2) id s)
  | .execute => .next (executeResult rd (s.E.rs1Value &&& s.E.rs2Value) s)
  | .memory => .next (passMemory id s)
  | .writeback => .next (retireWriter rd s)

/-- OR (R256). -/
def execOr (rd rs1 rs2 : RegId) (s : State) : Host.Outcome State Fault Refusal :=
  match s.stage with
  | .fetch => .next (advanceFetch s)
  | .decode => .next (decodeWith (some rs1) (some rs2) id s)
  | .execute => .next (executeResult rd (s.E.rs1Value ||| s.E.rs2Value) s)
  | .memory => .next (passMemory id s)
  | .writeback => .next (retireWriter rd s)

/-- XOR (R257). -/
def execXor (rd rs1 rs2 : RegId) (s : State) : Host.Outcome State Fault Refusal :=
  match s.stage with
  | .fetch => .next (advanceFetch s)
  | .decode => .next (decodeWith (some rs1) (some rs2) id s)
  | .execute => .next (executeResult rd (s.E.rs1Value ^^^ s.E.rs2Value) s)
  | .memory => .next (passMemory id s)
  | .writeback => .next (retireWriter rd s)

end Sys2Proof.Machine
end

