-- ==== Sys2Proof/Machine/Control.lean ====
section
/-! DEFINITION. The meanings of HALT, JUMP, BZ, BNZ and the internal NOP (43_control.md), stage by stage. -/

namespace Sys2Proof.Machine

/-- HALT's Decode action (R301): the rewrite of every record after its own. -/
def rewriteAfterHalt (s : State) : State := s.setProg (rewriteAfter s.prog (idx s.D.pc))

/-- JUMP's Execute action (R305). -/
def executeJump (target : Word) (s : State) : State :=
  let t := setTarget target s
  leaveExecute (if validTarget s.prog.length target then redirect target true t else deferFault t)

/-- JUMP's Memory action (R306): both stalls are released. -/
def releaseJump (s : State) : State := (s.stallF false).stallD false

/-- Branch resolution in Execute (R313). -/
def executeBranch (taken : Bool) (target : Word) (s : State) : State :=
  let t := (setTarget target s).setBp .none
  leaveExecute
    (if taken then
      if validTarget s.prog.length target then redirect target false (t.setBp .resolved) else deferFault t
    else t)

/-- HALT (R300). -/
def execHalt (s : State) : Host.Outcome State Fault Refusal :=
  match s.stage with
  | .fetch => .next (advanceFetch s)
  | .decode => .next (decodeWith none none rewriteAfterHalt s)
  | .execute => .next (leaveExecute s)
  | .memory => .next (passMemory id s)
  | .writeback => .next (retire s.setHalted)

/-- JUMP (R305, R306). -/
def execJump (rs1 : RegId) (imm : Word) (s : State) : Host.Outcome State Fault Refusal :=
  match s.stage with
  | .fetch => .next (advanceFetch s)
  | .decode => .next (decodeWith (some rs1) none id s)
  | .execute => .next (executeJump (plusImm s.E.rs1Value imm) s)
  | .memory => .next (passMemory releaseJump s)
  | .writeback => .next (retire s)

/-- BZ (R314). -/
def execBz (imm : Word) (s : State) : Host.Outcome State Fault Refusal :=
  match s.stage with
  | .fetch => .next (advanceFetch s)
  | .decode => .next (decodeWith none none armAfterRefresh s)
  | .execute => .next (executeBranch (takenIfZero s) (plusImm s.E.pc imm) s)
  | .memory => .next (passMemory id s)
  | .writeback => .next (retire s)

/-- BNZ (R315). -/
def execBnz (imm : Word) (s : State) : Host.Outcome State Fault Refusal :=
  match s.stage with
  | .fetch => .next (advanceFetch s)
  | .decode => .next (decodeWith none none armWithParameter s)
  | .execute => .next (executeBranch (takenIfNonzero s) (plusImm s.E.pc imm) s)
  | .memory => .next (passMemory id s)
  | .writeback => .next (retire s)

/-- NOP (R316): every stage treats it as the bubble it is, and Fetch moves past it. -/
def execNop (s : State) : Host.Outcome State Fault Refusal :=
  match s.stage with
  | .fetch => .next (advanceFetch s)
  | .decode => .next (leaveDecode s)
  | .execute => .next (leaveExecute s)
  | .memory => .next (leaveMemory s)
  | .writeback => .next (bubbleWriteback s)

end Sys2Proof.Machine
end

