-- ==== Sys2Proof/Machine/LoadStore.lean ====
section
/-! DEFINITION. The meanings of LOAD, LDR and STORE (42_loadstore.md), stage by stage. -/

namespace Sys2Proof.Machine

/-- LOAD's Execute action (R280): the address, and the destination marked pending; `fwd` is not written. -/
def executeLoad (rd : RegId) (a : Word) (s : State) : State := leaveExecute ((setAddress a s).setValid rd true)

/-- LDR's Execute action (R281): the address is published as if it were the result. -/
def executeLdr (rd : RegId) (a : Word) (s : State) : State := leaveExecute (setAddress a (publish rd a s))

/-- STORE's Execute action (R282): the address only. -/
def executeStore (a : Word) (s : State) : State := leaveExecute (setAddress a s)

/-- LOAD's Memory action (R280): the word is taken, published, and Decode's stall released. -/
def memoryLoad (rd : RegId) (s : State) : State :=
  ((s.setM { s.M with result := loadedWord s }).setFwd rd (loadedWord s)).stallD false

/-- LDR's Memory action (R281): the word is taken; nothing is published and no stall is touched. -/
def memoryLdr (s : State) : State := s.setM { s.M with result := loadedWord s }

/-- STORE's Memory action (R282): `MemWrite(M.mem_address, 1, M.rs1_value)`. -/
def memoryStore (s : State) : State := s.setMem (Memory.write s.dmem s.M.memAddress.toNat s.M.rs1Value)

/-- LOAD (R280). -/
def execLoad (rd rs1 : RegId) (imm : Word) (s : State) : Host.Outcome State Fault Refusal :=
  match s.stage with
  | .fetch => .next (advanceFetch s)
  | .decode => .next (decodeWith (some rs1) none id s)
  | .execute => .next (executeLoad rd (plusImm s.E.rs1Value imm) s)
  | .memory => .next (accessMemory .dataLoad (memoryLoad rd) s)
  | .writeback => .next (retireWriter rd s)

/-- LDR (R281). -/
def execLdr (rd rs1 rs2 : RegId) (s : State) : Host.Outcome State Fault Refusal :=
  match s.stage with
  | .fetch => .next (advanceFetch s)
  | .decode => .next (decodeWith (some rs1) (some rs2) id s)
  | .execute => .next (executeLdr rd (plusIndex s.E.rs1Value s.E.rs2Value) s)
  | .memory => .next (accessMemory .dataLoad memoryLdr s)
  | .writeback => .next (retireWriter rd s)

/-- STORE (R282): `rs1` is the value stored and `rs2` the base. -/
def execStore (rs1 rs2 : RegId) (imm : Word) (s : State) : Host.Outcome State Fault Refusal :=
  match s.stage with
  | .fetch => .next (advanceFetch s)
  | .decode => .next (decodeWith (some rs1) (some rs2) id s)
  | .execute => .next (executeStore (plusImm s.E.rs2Value imm) s)
  | .memory => .next (accessMemory .dataStore memoryStore s)
  | .writeback => .next (retire s)

end Sys2Proof.Machine
end

