-- ==== Sys2Proof/Machine/Cycle.lean ====
section
/-! DEFINITION. The five stage procedures, each running the instruction its latch holds, and the cycle they make
(40_pipeline.md). Every `stage` procedure sets the state's `stage` before it runs an instruction. -/

namespace Sys2Proof.Machine

/-- Writeback (40_pipeline.md R220, R225). -/
def writebackStage (s : State) : Host.Outcome State Fault Refusal :=
  let t := s.atStage .writeback
  if t.W.live then exec t.W.instr t else .next (bubbleWriteback t)

/-- Memory (40_pipeline.md R210, R214). -/
def memoryStage (s : State) : Host.Outcome State Fault Refusal :=
  let t := s.atStage .memory
  if t.M.live then exec t.M.instr t else .next (leaveMemory t)

/-- Execute (40_pipeline.md R200, R201, R205). -/
def executeStage (s : State) : Host.Outcome State Fault Refusal :=
  let t := s.atStage .execute
  if t.E.mulPending || t.E.live then exec t.E.instr t else .next (leaveExecute t)

/-- Decode (40_pipeline.md R180, R181, R192): behind a MUL whose second cycle is due it only stalls. -/
def decodeStage (s : State) : Host.Outcome State Fault Refusal :=
  let t := s.atStage .decode
  if t.E.mulPending then .next (t.stallD true)
  else if t.D.live then exec t.D.instr t else .next (leaveDecode t)

/-- The record at the pc, if the pc names one (40_pipeline.md R176, R178). -/
def fetchRecord (s : State) : Option Record := if aligned s.pc then s.prog[idx s.pc]? else none

/-- Fetch (40_pipeline.md R175 to R178). Past the program `F` becomes a bubble that carries the pc. -/
def fetchStage (s : State) : Host.Outcome State Fault Refusal :=
  let t := s.atStage .fetch
  if t.F.busy || t.F.stalled then .next (t.setD t.F)
  else
    match fetchRecord t with
    | some r => exec (decode r) (t.setF (latchOfRecord r t.pc))
    | none => .next (advanceFetch (t.setF { Latch.cleared with pc := t.pc }))

/-- Execute, Decode and Fetch, which a cycle does only if Memory raised no fault (40_pipeline.md R172). -/
def frontStages (s : State) : Host.Outcome State Fault Refusal :=
  andThen (andThen (executeStage s) decodeStage) fetchStage

/-- One cycle of a core that has not faulted (40_pipeline.md R172): `Memory` returned `stop = true` exactly when the
fault record is now valid, the record being invalid before (log 12). -/
def cycle (s : State) : Host.Outcome State Fault Refusal :=
  andThen
    (andThen (andThen (writebackStage s) memoryStage) fun t => if t.fault.valid then .next t else frontStages t)
    fun t => .next t.endCycle

/-- The termination test, made between cycles (40_pipeline.md R232). -/
def terminated (s : State) : Bool :=
  s.halted || decide (s.insCompleted = s.prog.length) || s.fault.valid

/-! ## Placing a record where the next cycle fetches (log 4) -/

/-- The program with record `r` at index `k`, padded with NOP records if it was shorter. -/
def putRecord : List Record → Nat → Record → List Record
  | [], 0, r => [r]
  | [], k + 1, r => nopRecord :: putRecord [] k r
  | _ :: p, 0, r => r :: p
  | q :: p, k + 1, r => q :: putRecord p k r

/-- A latch that neither acts nor stalls is left as it is; another becomes a cleared latch. -/
def quietLatch (l : Latch) : Latch :=
  if l.op = .nop && !l.stalled then l else Latch.cleared

/-- The state with record `r` where the next cycle's Fetch reads it: in the Program Store at the pc, with what would
keep that Fetch from happening (a pc that is not aligned, a stall, an occupant ahead, a run that has ended) removed. -/
def placeForFetch (r : Record) (s : State) : State :=
  let prog := putRecord s.prog (idx s.pc) r
  { s with
    pc := if aligned s.pc then s.pc else Config.pcBase + BitVec.ofNat 32 (Config.insnWidth * idx s.pc)
    prog := prog
    F := if s.F.busy || s.F.stalled then Latch.cleared else s.F
    D := quietLatch s.D
    E := quietLatch s.E
    M := quietLatch s.M
    halted := false
    insCompleted := if s.insCompleted = prog.length then s.insCompleted - 1 else s.insCompleted
    fault := { s.fault with valid := false } }

end Sys2Proof.Machine
end

