-- ==== Sys2Proof/Machine/Step.lean ====
section
/-! DEFINITION. One step of the core, and placing a word where the next step fetches. -/

namespace Sys2Proof.Machine

/-- One step is `Run(clock + 1, mode)` (40_pipeline.md R231, 60_exceptions.md R351): one cycle, or nothing on a
terminated core (40_pipeline.md R233; log 1). -/
def step (s : State) : Host.Outcome State Fault Refusal :=
  if terminated s then .next s else cycle s

/-- The state with the word `w` of `nbits` bits as the record the next step fetches (log 3, log 4). -/
def State.withFetchWord (s : State) (nbits w : Nat) : State := placeForFetch (recordOfWord nbits w) s

end Sys2Proof.Machine
end

