-- ==== Sys2Proof/Machine/Trace.lean ====
section
/-! DEFINITION. The outputs of the core: the trace records of a cycle (60_exceptions.md R350) and the final snapshot
(00_scope.md R16). They are functions of the state; producing them changes nothing (R17). -/

namespace Sys2Proof.Machine

/-- The fields a trace record shows of a latch (R350). -/
structure Held where
  op : Opcode
  pc : Word
  rd : RegId
  rs1 : RegId
  rs2 : RegId
  imm : Word
  rs1Value : Word
  rs2Value : Word
  result : Word
  memAddress : Word
  deriving DecidableEq, Repr

/-- One stage's record: what it held, or that it was empty or stalled (R350). -/
inductive TraceEntry where
  | held (h : Held)
  | emptyOrStalled
  deriving DecidableEq, Repr

/-- A trace record: the stage and its entry. -/
structure TraceRecord where
  stage : Stage
  entry : TraceEntry
  deriving DecidableEq, Repr

/-- The shown fields of a latch. -/
def Latch.held (l : Latch) : Held where
  op := l.op
  pc := l.pc
  rd := l.rd
  rs1 := l.rs1
  rs2 := l.rs2
  imm := l.imm
  rs1Value := l.rs1Value
  rs2Value := l.rs2Value
  result := l.result
  memAddress := l.memAddress

/-- The record of stage `g`, given whether its latch was live as the stage was evaluated, and the latch after the
stage's own action. -/
def traceRecord (g : Stage) (live : Bool) (l : Latch) : TraceRecord :=
  { stage := g, entry := if live then .held l.held else .emptyOrStalled }

/-- The state an outcome goes on with; a stop leaves the state before it. -/
def Outcome.stateOr (s : State) (o : Host.Outcome State Fault Refusal) : State :=
  match o with
  | .next t => t
  | .fault _ => s
  | .refused _ => s

/-- The trace records of the cycle that starts in `s`, in the order W, M, E, D, F; only W and M in a cycle that raises
a fault (R350). Fetch's occupant is what this cycle's Fetch read (log 11). -/
def cycleTrace (s : State) : List TraceRecord :=
  let w := Outcome.stateOr s (writebackStage s)
  let m := Outcome.stateOr w (memoryStage w)
  let older := [traceRecord .writeback s.W.live w.W, traceRecord .memory w.M.live m.M]
  if m.fault.valid then older
  else
    let e := Outcome.stateOr m (executeStage m)
    let d := Outcome.stateOr e (decodeStage e)
    let f := Outcome.stateOr d (fetchStage d)
    older ++
      [traceRecord .execute (m.E.live || m.E.mulPending) e.E, traceRecord .decode e.D.live d.D,
        traceRecord .fetch f.F.live f.F]

/-- The final snapshot (00_scope.md R16): each register with its value and its validity flag, and the first
`DUMP_WORDS` words of Data Memory. -/
structure FinalSnapshot where
  regs : List (Word × Bool)
  words : List Word
  deriving DecidableEq, Repr

/-- The final snapshot of a state (R16). -/
def finalSnapshot (s : State) : FinalSnapshot where
  regs := s.x.toList.zip s.valid.toList
  words := (List.range Config.dumpWords).map (Memory.read s.dmem)

end Sys2Proof.Machine
end

