-- ==== Sys2Proof/Machine/HostOps.lean ====
section
/-! DEFINITION. The host's two operations, `Init` and `Run` (00_scope.md R13, R14). -/

namespace Sys2Proof.Machine

/-! ## Init (70_reset_and_hazards.md R370, R371) -/

/-- What the loader hands over (00_scope.md R12). -/
inductive LoadResult where
  | failure
  | records (p : List Record)
  deriving DecidableEq, Repr

/-- `InitializationFailure`, with the condition of R371 that caused it: (a) to (e) in order. -/
inductive InitFailure where
  | loadFailure
  | emptyProgram
  | overCapacity
  | reservedOpcode
  | addressesWrap
  deriving DecidableEq, Repr

/-- The first condition of R371 a program meets, if any. -/
def initFailure (p : List Record) : Option InitFailure :=
  let is := p.map decode
  if !Program.nonempty is then some .emptyProgram
  else if !Program.fits is then some .overCapacity
  else if !Program.unreserved is then some .reservedOpcode
  else if !Program.addressable is then some .addressesWrap
  else none

/-- The fresh core that holds the program `p`, under a setting of `SNAPSHOT_ON_BNZ` (R370). -/
def freshCore (snapshotOnBnz : Bool) (p : List Record) : State :=
  { State.reset with prog := p, snapshotOnBnz := snapshotOnBnz }

/-- `Init(program)` (R13, R370, R371). -/
def init (snapshotOnBnz : Bool) (l : LoadResult) : Except InitFailure State :=
  match l with
  | .failure => .error .loadFailure
  | .records p =>
    match initFailure p with
    | some e => .error e
    | none => .ok (freshCore snapshotOnBnz p)

/-! ## Run (40_pipeline.md R231 to R234) -/

/-- The trace verbosity (00_scope.md R17). -/
inductive Mode where
  | quiet | traced
  deriving DecidableEq, Repr

/-- How a run ended (40_pipeline.md R234). -/
inductive Ending where
  | terminated | endedByBudget
  deriving DecidableEq, Repr

/-- `while clock < budget and not terminated(): cycle()`, at most `fuel` times. -/
def runFor : Nat → Nat → State → Host.Outcome State Fault Refusal
  | 0, _, s => .next s
  | fuel + 1, budget, s =>
    if decide (s.clock < budget) && !terminated s then andThen (step s) (runFor fuel budget) else .next s

/-- The state `Run(budget, mode)` ends in (R231): every cycle adds 1 to `clock`, so `budget - clock` rounds are
enough. -/
def run (budget : Nat) (s : State) : Host.Outcome State Fault Refusal := runFor (budget - s.clock) budget s

/-- The trace records of the cycles of a run, oldest cycle first. -/
def traceFor : Nat → Nat → State → List (List TraceRecord)
  | 0, _, _ => []
  | fuel + 1, budget, s =>
    if decide (s.clock < budget) && !terminated s then
      cycleTrace s :: traceFor fuel budget (Outcome.stateOr s (step s))
    else []

/-- What `Run` presents to the host: how it ended, the final snapshot, and the trace the mode lets it consume. -/
structure RunReport where
  ending : Ending
  snapshot : FinalSnapshot
  trace : List (List TraceRecord)
  deriving DecidableEq, Repr

/-- The report of `Run(budget, mode)` on `s` (R231, R234, R17). -/
def runReport (budget : Nat) (mode : Mode) (s : State) : RunReport :=
  let t := Outcome.stateOr s (run budget s)
  { ending := if terminated t then .terminated else .endedByBudget
    snapshot := finalSnapshot t
    trace := match mode with
      | .quiet => []
      | .traced => traceFor (budget - s.clock) budget s }

end Sys2Proof.Machine
end

