-- ==== Sys2Proof/Machine/Sequential.lean ====
section
/-! DEFINITION. The one-instruction-at-a-time interpreter of 70_reset_and_hazards.md R396: the same five stage
procedures, done in program order for one record with nothing else in flight. It has no timing. -/

namespace Sys2Proof.Machine

/-- Nothing in flight: every latch cleared, no write pending, no branch pending (log 14). -/
def drain (s : State) : State :=
  { s with
    F := Latch.cleared
    D := Latch.cleared
    E := Latch.cleared
    M := Latch.cleared
    W := Latch.cleared
    valid := Vector.replicate 16 false
    bp := .none }

/-- Execute for one instruction alone: a MUL takes its second cycle at once (40_pipeline.md R200). -/
def executeWhole (s : State) : Host.Outcome State Fault Refusal :=
  andThen (executeStage s) fun t => if t.E.mulPending then executeStage t else .next t

/-- Writeback for one instruction alone, after Memory's copy has left `M`; a fault retires nothing
(60_exceptions.md R333). -/
def retireAlone (s : State) : Host.Outcome State Fault Refusal :=
  if s.fault.valid then .next s else writebackStage (s.setM Latch.cleared)

/-- One whole instruction of the interpreter of R396: fetched, decoded, executed, given its memory access and
retired before the next is fetched. -/
def seqStep (s : State) : Host.Outcome State Fault Refusal :=
  if terminated s then .next s
  else
    andThen
      (andThen (andThen (andThen (fetchStage (drain s)) decodeStage) executeWhole) memoryStage)
      retireAlone

end Sys2Proof.Machine
end

