-- ==== Sys2Proof/Safety.lean ====
section
/-! DEFINITION. The words claims are stated in: the operand roles of each instruction as the spec tables them, the
load-use hazard, and the invariants a cycle keeps. Nothing of the machine is defined through these. -/

namespace Sys2Proof.Safety

open Sys2Proof.Machine

/-! ## Operand roles (30_encoding.md R135, 40_pipeline.md R182, R221) -/

/-- The register in field `rs1`, where R135 marks that field "src". -/
def sourceRs1 : Instr → Option RegId
  | .movc _ _ => none
  | .add _ rs1 _ => some rs1
  | .addi _ rs1 _ => some rs1
  | .sub _ rs1 _ => some rs1
  | .mul _ rs1 _ => some rs1
  | .and _ rs1 _ => some rs1
  | .or _ rs1 _ => some rs1
  | .xor _ rs1 _ => some rs1
  | .load _ rs1 _ => some rs1
  | .ldr _ rs1 _ => some rs1
  | .store rs1 _ _ => some rs1
  | .halt => none
  | .jump rs1 _ => some rs1
  | .bz _ => none
  | .bnz _ => none
  | .nop => none

/-- The register in field `rs2`, where R135 marks that field "src". -/
def sourceRs2 : Instr → Option RegId
  | .movc _ _ => none
  | .add _ _ rs2 => some rs2
  | .addi _ _ _ => none
  | .sub _ _ rs2 => some rs2
  | .mul _ _ rs2 => some rs2
  | .and _ _ rs2 => some rs2
  | .or _ _ rs2 => some rs2
  | .xor _ _ rs2 => some rs2
  | .load _ _ _ => none
  | .ldr _ _ rs2 => some rs2
  | .store _ rs2 _ => some rs2
  | .halt => none
  | .jump _ _ => none
  | .bz _ => none
  | .bnz _ => none
  | .nop => none

/-- The register the instruction writes in Writeback, for the ten writers of R221. -/
def destination : Instr → Option RegId
  | .movc rd _ => some rd
  | .add rd _ _ => some rd
  | .addi rd _ _ => some rd
  | .sub rd _ _ => some rd
  | .mul rd _ _ => some rd
  | .and rd _ _ => some rd
  | .or rd _ _ => some rd
  | .xor rd _ _ => some rd
  | .load rd _ _ => some rd
  | .ldr rd _ _ => some rd
  | .store _ _ _ => none
  | .halt => none
  | .jump _ _ => none
  | .bz _ => none
  | .bnz _ => none
  | .nop => none

/-- The instructions that touch Data Memory, of which Memory checks the address (42_loadstore.md R284). -/
def accessesData : Instr → Bool
  | .movc _ _ => false
  | .add _ _ _ => false
  | .addi _ _ _ => false
  | .sub _ _ _ => false
  | .mul _ _ _ => false
  | .and _ _ _ => false
  | .or _ _ _ => false
  | .xor _ _ _ => false
  | .load _ _ _ => true
  | .ldr _ _ _ => true
  | .store _ _ _ => true
  | .halt => false
  | .jump _ _ => false
  | .bz _ => false
  | .bnz _ => false
  | .nop => false

/-! ## Hazards and operands as the rules word them -/

/-- Register `s` is a load-to-use hazard: pending, and `E` holds a live LOAD of it (40_pipeline.md R183). -/
def pendingLoad (s : State) (r : RegId) : Prop :=
  s.valid[r] = true ∧ s.E.live = true ∧ s.E.op = .load ∧ s.E.rd = r

/-- Some source register of `i` is a load-to-use hazard (R183). -/
def loadUseHazard (s : State) (i : Instr) : Prop :=
  ∃ r, (sourceRs1 i = some r ∨ sourceRs2 i = some r) ∧ pendingLoad s r

/-- The value Decode gives a field: the forwarded value of a pending register, else the register, and 0 for a field
that is no source (40_pipeline.md R185, R190). -/
def materialized (s : State) : Option RegId → Word
  | some r => if s.valid[r] = true then s.fwd[r] else s.x[r]
  | none => 0

/-! ## What a cycle is about to do -/

/-- The Memory stage of the next cycle raises the fault (40_pipeline.md R211, 42_loadstore.md R284). -/
def raisesFault (s : State) : Prop :=
  s.M.live = true ∧
    (s.M.fault = true ∨
      (s.M.op = .load ∨ s.M.op = .ldr ∨ s.M.op = .store) ∧ Config.dmemWords ≤ s.M.memAddress.toNat)

/-- A valid control target of a program of `n` records, in the words of 43_control.md R303 and 00_scope.md R20. -/
def targetAccepted (n : Nat) (t : Word) : Prop :=
  (t - Config.pcBase).toNat % Config.insnWidth = 0 ∧ (t - Config.pcBase).toNat / Config.insnWidth ≤ n

/-- The index of an instruction address (00_scope.md R20), as an integer. -/
def indexOf (a : Word) : Int := ((a - Config.pcBase).toNat / Config.insnWidth : Nat)

/-- Execute would redirect to `t` in the next cycle: a live JUMP, or a live BZ or BNZ that is taken, with an accepted
target (43_control.md R305, R313). -/
def redirectsTo (s : State) (t : Word) : Prop :=
  s.E.live = true ∧ targetAccepted s.prog.length t ∧
    (s.E.op = .jump ∧ t = s.E.rs1Value + s.E.imm ∨
      t = s.E.pc + s.E.imm ∧ (s.E.op = .bz ∧ s.snapshot = true ∨ s.E.op = .bnz ∧ s.snapshot = false))

/-- `E`'s occupant has published `v` in its single Execute cycle and is copied into `M`; the zero flag is `z` and
everything else is as it was (40_pipeline.md R202, R204). -/
def published (s : State) (rd : RegId) (v : Word) (z : Bool) : State :=
  { s with
    E := { s.E with result := v }
    M := { s.E with result := v }
    fwd := s.fwd.set rd v
    valid := s.valid.set rd true
    z := z }

/-- The value the occupant of a latch publishes in Execute: in its single cycle, or for MUL in its second
(40_pipeline.md R200, R202); none for an instruction that publishes nothing there. -/
def publishedValue (l : Latch) : Option Word :=
  match l.op with
  | .movc => some l.imm
  | .add => some (l.rs1Value + l.rs2Value)
  | .addi => some (l.rs1Value + l.imm)
  | .sub => some (l.rs1Value - l.rs2Value)
  | .mul => some (l.rs1Value * l.rs2Value)
  | .and => some (l.rs1Value &&& l.rs2Value)
  | .or => some (l.rs1Value ||| l.rs2Value)
  | .xor => some (l.rs1Value ^^^ l.rs2Value)
  | .load => none
  | .ldr => some (l.rs1Value + l.rs2Value)
  | .store => none
  | .halt => none
  | .jump => none
  | .bz => none
  | .bnz => none
  | .nop => none

/-- Execute publishes `v` to register `r` in the next cycle: a live single-cycle producer, or a MUL whose second cycle
is due (40_pipeline.md R200, R202). -/
def publishes (s : State) (r : RegId) (v : Word) : Prop :=
  (s.E.live = true ∧ s.E.op ≠ .mul ∨ s.E.mulPending = true) ∧ s.E.rd = r ∧ publishedValue s.E = some v

/-- Execute of the next cycle lets the occupant of `D` be decoded without touching register `r`: no MUL in its first
cycle, no LOAD, no redirect, and nothing published to `r`. -/
def executeLeaves (s : State) (r : RegId) : Prop :=
  (s.E.live = true → s.E.op ≠ .mul ∧ s.E.op ≠ .load) ∧ (∀ a, ¬redirectsTo s a) ∧ ∀ v, ¬publishes s r v

/-- `D` holds an instruction that the next cycle decodes unless a hazard meets it: live, or held only by a MUL whose
second cycle is due or by a LOAD in `M`, which both release it in that cycle (10_state.md R55). -/
def decodable (s : State) : Prop :=
  s.D.busy = false ∧ s.D.op ≠ .nop ∧
    (s.D.stalled = true → s.E.mulPending = true ∨ s.M.live = true ∧ s.M.op = .load)

/-- `i` is a JUMP. -/
def isJump (i : Instr) : Prop := ∃ rs1 imm, i = .jump rs1 imm

/-- `i` is a BZ or a BNZ. -/
def isBranch (i : Instr) : Prop := (∃ imm, i = .bz imm) ∨ ∃ imm, i = .bnz imm

/-- After a redirect to `a` in a program `p`: `D` empty and stalled, nothing decoded, the pc held at the target
(70_reset_and_hazards.md R386, R387). -/
def waitsForTarget (p : List Record) (a : Word) (s : State) : Prop :=
  s.pc = a ∧ s.D.live = false ∧ s.D.stalled = true ∧ s.E.live = false ∧ s.prog = p

/-- The target `a` of a redirect in a program `p` has just been fetched into `D`, free to be decoded in the next cycle,
and nothing was decoded in this one (R386, R387). -/
def targetInDecode (p : List Record) (a : Word) (s : State) : Prop :=
  s.pc = a + BitVec.ofNat 32 Config.insnWidth ∧ s.F.stalled = false ∧ s.D.stalled = false ∧ s.D = s.F ∧
    s.E.live = false ∧ ∀ r, p[idx a]? = some r → s.D = latchOfRecord r a

/-- What a trace record shows of a stage (60_exceptions.md R350): the ten fields of a live latch, or that it was empty
or stalled. -/
def shown (live : Bool) (l : Latch) : TraceEntry :=
  if live = true then
    .held {
      op := l.op
      pc := l.pc
      rd := l.rd
      rs1 := l.rs1
      rs2 := l.rs2
      imm := l.imm
      rs1Value := l.rs1Value
      rs2Value := l.rs2Value
      result := l.result
      memAddress := l.memAddress }
  else .emptyOrStalled

/-! ## Invariants -/

/-- Data Memory is in its canonical form. -/
def memoryCanonical (s : State) : Prop := Memory.wf s.dmem

/-- The pc is `PC_BASE + k * INSN_WIDTH` modulo 2^32 (10_state.md R47). -/
def pcAligned (s : State) : Prop := ∃ k : Nat, s.pc = Config.pcBase + BitVec.ofNat 32 (Config.insnWidth * k)

/-- A register is pending exactly when `M` or `W` holds a live instruction that writes it
(70_reset_and_hazards.md R395). -/
def pendingExact (s : State) : Prop := ∀ r, s.valid[r] = true ↔ s.M.writes r = true ∨ s.W.writes r = true

/-- Every stall of Decode or Fetch has one of the four sources of 10_state.md R55, still able to release it, and no
latch ahead of Memory carries a deferred fault (R54) or, in Fetch, a busy mark (R53). -/
structure stallsHaveSources (s : State) : Prop where
  noFault : s.F.fault = false ∧ s.D.fault = false ∧ s.E.fault = false
  fetchFree : s.F.busy = false
  fetchStall : s.F.stalled = true → s.M.live = true ∧ s.M.op = .jump ∧ s.M.fault = false
  decodeStall : s.D.stalled = true →
    s.E.mulPending = true ∨
      s.E.stalled = true ∧
        (s.M.live = true ∧ s.M.op = .load ∨ s.M.live = true ∧ s.M.op = .jump ∧ s.M.fault = false ∨
          s.bp = .resolved)

end Sys2Proof.Safety
end

