-- ==== Sys2Proof/Certificates/Slice0/Obligations.lean ====
section
/-! DEFINITION. The statements for the provers. A title in OBLIGATIONS.json that ends in "(decision Dn)" or
"(derived)" says that the rule it rests on is marked by the spec as its own choice or inference. -/

open Sys2Proof Sys2Proof.Machine Sys2Proof.Safety

/-! ## Encoding (30_encoding.md) -/

/-- Decoding an encoded instruction gives it back, with every operand at every value (R131, R132, R138). -/
def Obligations.DecodeEncodeRoundTrip : Prop := ∀ i : Instr, decode (encode i) = i

/-- A record is its five fields at the places of R131, and nothing else; the code of `op` is R132's. -/
def Obligations.RecordIsItsFields : Prop :=
  (∀ r : Record, recordOfFields (opField r) (rdField r) (rs1Field r) (rs2Field r) (immField r) = r) ∧
    ∀ (op : Opcode) (rd rs1 rs2 : RegId) (imm : Word),
      (recordOfFields op rd rs1 rs2 imm).toNat =
        (codeOfOpcode op).toNat * 2 ^ 44 + rd.val * 2 ^ 40 + rs1.val * 2 ^ 36 + rs2.val * 2 ^ 32 + imm.toNat

/-- A field that R135 marks "—" for an opcode changes nothing of what the record decodes to (R136). -/
def Obligations.UnusedFieldsIgnored : Prop :=
  ∀ (rd rd' rs1 rs1' rs2 rs2' : RegId) (imm imm' : Word),
    decode (recordOfFields .movc rd rs1 rs2 imm) = decode (recordOfFields .movc rd rs1' rs2' imm) ∧
    (∀ op ∈ [Opcode.add, .sub, .mul, .and, .or, .xor, .ldr],
      decode (recordOfFields op rd rs1 rs2 imm) = decode (recordOfFields op rd rs1 rs2 imm')) ∧
    (∀ op ∈ [Opcode.addi, .load],
      decode (recordOfFields op rd rs1 rs2 imm) = decode (recordOfFields op rd rs1 rs2' imm)) ∧
    decode (recordOfFields .store rd rs1 rs2 imm) = decode (recordOfFields .store rd' rs1 rs2 imm) ∧
    (∀ op ∈ [Opcode.halt, .nop],
      decode (recordOfFields op rd rs1 rs2 imm) = decode (recordOfFields op rd' rs1' rs2' imm')) ∧
    decode (recordOfFields .jump rd rs1 rs2 imm) = decode (recordOfFields .jump rd' rs1 rs2' imm) ∧
    ∀ op ∈ [Opcode.bz, .bnz],
      decode (recordOfFields op rd rs1 rs2 imm) = decode (recordOfFields op rd' rs1' rs2' imm)

/-- The worked encodings of R139, and one written-out word of each other shape (41_alu.md R250, 95_test_vectors.md). -/
def Obligations.SampleWordsDecode : Prop :=
  decode 0x010000000005 = .movc 1 5 ∧ decode 0xA01200000002 = .store 1 2 2 ∧
    decode 0xE000FFFFFFF8 = .bnz (-8) ∧ decode 0x431200000000 = .mul 3 1 2 ∧
    decode 0x2110FFFFFFFF = .addi 1 1 (-1) ∧ decode 0x931200000000 = .ldr 3 1 2 ∧
    decode 0xC01000000000 = .jump 1 0 ∧ decode 0xB00000000000 = .halt

/-- Any 48-bit word placed where the first step after reset fetches is read into `F` and passed to `D`, and the pc
and the clock move on (70_reset_and_hazards.md R372, R373). -/
def Obligations.FirstStepFetchesPlacedWord : Prop :=
  ∀ w : Nat, w < 2 ^ 48 →
    step (State.reset.withFetchWord 48 w) =
      .next { State.reset with
        prog := [BitVec.ofNat 48 w]
        F := latchOfRecord (BitVec.ofNat 48 w) 4000
        D := latchOfRecord (BitVec.ofNat 48 w) 4000
        pc := 4004
        clock := 1 }

/-! ## Fetch and Decode (40_pipeline.md) -/

/-- Every instruction in Fetch: held if `D.stalled`, otherwise the pc advances and `D <- F` (R177). -/
def Obligations.FetchedInstructionMovesOn : Prop :=
  ∀ (i : Instr) (s : State), s.stage = .fetch →
    exec i s =
      .next (if s.D.stalled = true then s
        else { s with pc := s.pc + BitVec.ofNat 32 Config.insnWidth, D := s.F })

/-- A busy or stalled `F`: no record is read, the pc stays, and `F` is passed on unchanged (R175). -/
def Obligations.HeldFetchPassesFUnchanged : Prop :=
  ∀ s : State, s.F.busy = true ∨ s.F.stalled = true →
    fetchStage s = .next { s with D := s.F, stage := .fetch }

/-- Otherwise Fetch reads the record at the pc into `F`, every field it does not read being 0, or a bubble that
carries the pc when the pc is past the program (R176; the bubble is decision D15), and then R177 applies. -/
def Obligations.FetchReadsRecordAtPc : Prop :=
  ∀ (s : State) (l : Latch), s.F.busy = false → s.F.stalled = false →
    (∀ r, aligned s.pc = true → s.prog[idx s.pc]? = some r →
      l = { op := opField r, rd := rdField r, rs1 := rs1Field r, rs2 := rs2Field r, imm := immField r, pc := s.pc,
            rs1Value := 0, rs2Value := 0, result := 0, memAddress := 0, busy := false, stalled := false,
            fault := false }) →
    (aligned s.pc = false ∨ s.prog.length ≤ idx s.pc → l = { Latch.cleared with pc := s.pc }) →
    fetchStage s =
      .next (if s.D.stalled = true then { s with F := l, stage := .fetch }
        else { s with F := l, D := l, pc := s.pc + BitVec.ofNat 32 Config.insnWidth, stage := .fetch })

/-- Decode behind a MUL whose second cycle is due only stalls, and `E` keeps the MUL (R180); otherwise a `D` that is
not live is copied into `E` and nothing else happens (R181). -/
def Obligations.DecodeHoldsOrPassesBubble : Prop :=
  ∀ s : State,
    (s.E.op = .mul → s.E.busy = true → s.E.stalled = false →
      decodeStage s = .next { s with D := { s.D with stalled := true }, stage := .decode }) ∧
    (¬(s.E.op = .mul ∧ s.E.busy = true ∧ s.E.stalled = false) →
      ¬(s.D.busy = false ∧ s.D.stalled = false ∧ s.D.op ≠ .nop) →
      decodeStage s = .next { s with E := s.D, stage := .decode })

/-- Decode of any instruction that meets no load-use hazard: the operands through the multiplexer (R190), the
opcode's own action and no other (R186), and the copy `E <- D` (R187). The spec's own choices in it: which fields are
sources (R182, decision D7), the 0 of a field that is no source (R185, D26), the BNZ refresh under the parameter (R311,
D11), arming (R312, D12) and the NOP record (D3); log 19. -/
def Obligations.DecodeReadsActsAndPasses : Prop :=
  ∀ (i : Instr) (s : State), i ≠ .nop → s.stage = .decode → ¬loadUseHazard s i →
    exec i s =
      .next { s with
        D := { s.D with rs1Value := materialized s (sourceRs1 i), rs2Value := materialized s (sourceRs2 i) }
        E := { s.D with rs1Value := materialized s (sourceRs1 i), rs2Value := materialized s (sourceRs2 i) }
        prog := if i = .halt then
            s.prog.take (idx s.D.pc + 1) ++ List.replicate (s.prog.length - (idx s.D.pc + 1)) (encode .nop)
          else s.prog
        bp := match i with
          | .bz _ => .armed
          | .bnz _ => .armed
          | _ => s.bp
        snapshot := match i with
          | .bz _ => s.z
          | .bnz _ => if s.snapshotOnBnz = true then s.z else s.snapshot
          | _ => s.snapshot }

/-- Decode of any instruction with a load-use hazard: it stalls and passes a bubble, and does nothing else (R183;
the copy is R184's). -/
def Obligations.LoadUseHazardStalls : Prop :=
  ∀ (i : Instr) (s : State), s.stage = .decode → loadUseHazard s i →
    exec i s = .next { s with D := { s.D with stalled := true }, E := { s.D with stalled := true } }

/-- The HALT rewrite: every later record becomes NOP, the records up to the HALT and the length stay, and a Fetch of a
later record reads NOP from then on (43_control.md R301, 10_state.md R49). -/
def Obligations.HaltRewritesLaterRecords : Prop :=
  ∀ s : State, s.stage = .decode →
    ∃ t, exec .halt s = .next t ∧ t.prog.length = s.prog.length ∧
      (∀ k, k ≤ idx s.D.pc → t.prog[k]? = s.prog[k]?) ∧
      (∀ k, idx s.D.pc < k → k < s.prog.length → t.prog[k]? = some 0xF00000000000) ∧
      ∀ a r, idx s.D.pc < idx a → fetchRecord { t with pc := a } = some r → decode r = .nop

/-! ## Execute (40_pipeline.md, 41_alu.md, 42_loadstore.md, 43_control.md) -/

/-- An `E` that is not live, and is no MUL in its second cycle, is copied into `M` and nothing else changes (R201). -/
def Obligations.BubbleExecuteChangesNothing : Prop :=
  ∀ s : State, ¬(s.E.op = .mul ∧ s.E.busy = true ∧ s.E.stalled = false) →
    ¬(s.E.busy = false ∧ s.E.stalled = false ∧ s.E.op ≠ .nop) →
    executeStage s = .next { s with M := s.E, stage := .execute }

/-- MOVC, AND, OR and XOR in Execute: the code, the published result, and `Z` unchanged (41_alu.md R250, R255 to
R257). -/
def Obligations.MoveAndLogicExecute : Prop :=
  ∀ (rd rs1 rs2 : RegId) (imm : Word) (s : State), s.stage = .execute →
    (codeOfOpcode (opField (encode (.movc rd imm))) = 0 ∧ exec (.movc rd imm) s = .next (published s rd imm s.z)) ∧
    (codeOfOpcode (opField (encode (.and rd rs1 rs2))) = 5 ∧
      exec (.and rd rs1 rs2) s = .next (published s rd (s.E.rs1Value &&& s.E.rs2Value) s.z)) ∧
    (codeOfOpcode (opField (encode (.or rd rs1 rs2))) = 6 ∧
      exec (.or rd rs1 rs2) s = .next (published s rd (s.E.rs1Value ||| s.E.rs2Value) s.z)) ∧
    (codeOfOpcode (opField (encode (.xor rd rs1 rs2))) = 7 ∧
      exec (.xor rd rs1 rs2) s = .next (published s rd (s.E.rs1Value ^^^ s.E.rs2Value) s.z))

/-- ADD, ADDI and SUB in Execute: the code, the result modulo 2^32 published, and `Z` set exactly when it is 0
(41_alu.md R251 to R253). -/
def Obligations.ArithmeticExecutes : Prop :=
  ∀ (rd rs1 rs2 : RegId) (imm : Word) (s : State) (a b : Nat), s.stage = .execute →
    a = s.E.rs1Value.toNat → b = s.E.rs2Value.toNat →
    (codeOfOpcode (opField (encode (.add rd rs1 rs2))) = 1 ∧
      exec (.add rd rs1 rs2) s =
        .next (published s rd (BitVec.ofNat 32 (a + b)) (decide ((a + b) % 2 ^ 32 = 0)))) ∧
    (codeOfOpcode (opField (encode (.addi rd rs1 imm))) = 2 ∧
      exec (.addi rd rs1 imm) s =
        .next (published s rd (BitVec.ofInt 32 (a + imm.toInt)) (decide ((a + imm.toInt) % 2 ^ 32 = 0)))) ∧
    (codeOfOpcode (opField (encode (.sub rd rs1 rs2))) = 3 ∧
      exec (.sub rd rs1 rs2) s =
        .next (published s rd (BitVec.ofInt 32 ((a : Int) - b)) (decide (a = b))))

/-- MUL's two Execute cycles: the first only marks it busy and passes a bubble, the second gives the low 32 bits of
the product, writes `Z`, publishes, and releases Decode (41_alu.md R254, 40_pipeline.md R200). -/
def Obligations.MulTakesTwoExecuteCycles : Prop :=
  ∀ (rd rs1 rs2 : RegId) (s : State) (v : Word), s.stage = .execute →
    v = BitVec.ofNat 32 (s.E.rs1Value.toNat * s.E.rs2Value.toNat) →
    codeOfOpcode (opField (encode (.mul rd rs1 rs2))) = 4 ∧
    (s.E.busy = false →
      exec (.mul rd rs1 rs2) s =
        .next { s with E := { s.E with busy := true }, M := { s.E with busy := true } }) ∧
    (s.E.busy = true →
      exec (.mul rd rs1 rs2) s =
        .next { s with
          E := { s.E with result := v, busy := false }
          M := { s.E with result := v, busy := false }
          D := { s.D with stalled := false }
          fwd := s.fwd.set rd v
          valid := s.valid.set rd true
          z := decide (v = 0) })

/-- LOAD in Execute and, its address in range, in Memory (42_loadstore.md R280; the early pending mark is decision
D22). -/
def Obligations.LoadComputesAddressThenReads : Prop :=
  ∀ (rd rs1 : RegId) (imm : Word) (s : State) (a v : Word),
    codeOfOpcode (opField (encode (.load rd rs1 imm))) = 8 ∧
    (s.stage = .execute → a = s.E.rs1Value + imm →
      exec (.load rd rs1 imm) s =
        .next { s with
          E := { s.E with memAddress := a }
          M := { s.E with memAddress := a }
          valid := s.valid.set rd true }) ∧
    (s.stage = .memory → s.M.fault = false → s.M.memAddress.toNat < Config.dmemWords →
      v = Memory.read s.dmem s.M.memAddress.toNat →
      exec (.load rd rs1 imm) s =
        .next { s with
          M := { s.M with result := v }
          W := { s.M with result := v }
          fwd := s.fwd.set rd v
          D := { s.D with stalled := false } })

/-- LDR publishes its address in Execute and, its address in range, reads the word in Memory without publishing it
(42_loadstore.md R281, decision D21). -/
def Obligations.LdrPublishesAddressThenReads : Prop :=
  ∀ (rd rs1 rs2 : RegId) (s : State) (a : Word),
    codeOfOpcode (opField (encode (.ldr rd rs1 rs2))) = 9 ∧
    (s.stage = .execute → a = s.E.rs1Value + s.E.rs2Value →
      exec (.ldr rd rs1 rs2) s =
        .next { s with
          E := { s.E with result := a, memAddress := a }
          M := { s.E with result := a, memAddress := a }
          fwd := s.fwd.set rd a
          valid := s.valid.set rd true }) ∧
    (s.stage = .memory → s.M.fault = false → s.M.memAddress.toNat < Config.dmemWords →
      exec (.ldr rd rs1 rs2) s =
        .next { s with
          M := { s.M with result := Memory.read s.dmem s.M.memAddress.toNat }
          W := { s.M with result := Memory.read s.dmem s.M.memAddress.toNat } })

/-- STORE computes its address from the base `rs2` in Execute; in Memory, its address in range, the word at that
address becomes `M.rs1_value` and every other word, and every other piece of state but `W`, is unchanged
(42_loadstore.md R282, R283). The store's address is `M.mem_address`, which Execute computed. -/
def Obligations.StoreWritesOneWord : Prop :=
  ∀ (rs1 rs2 : RegId) (imm : Word) (s : State) (a : Word),
    codeOfOpcode (opField (encode (.store rs1 rs2 imm))) = 10 ∧
    (s.stage = .execute → a = s.E.rs2Value + imm →
      exec (.store rs1 rs2 imm) s =
        .next { s with E := { s.E with memAddress := a }, M := { s.E with memAddress := a } }) ∧
    (s.stage = .memory → memoryCanonical s → s.M.fault = false → s.M.memAddress.toNat < Config.dmemWords →
      ∃ m : Memory,
        exec (.store rs1 rs2 imm) s = .next { s with W := s.M, dmem := m } ∧
        Memory.read m s.M.memAddress.toNat = s.M.rs1Value ∧
        ∀ b : Nat, b ≠ s.M.memAddress.toNat → Memory.read m b = Memory.read s.dmem b)

/-- JUMP in Execute: to an accepted target it redirects, flushes `F` and `D`, stalls both and corrects the count; a
target that is not accepted only marks the latch (43_control.md R302 to R305, decisions D13, D14, D16). -/
def Obligations.JumpRedirectsOrMarksFault : Prop :=
  ∀ (rs1 : RegId) (imm : Word) (s : State) (t : Word), s.stage = .execute → t = s.E.rs1Value + imm →
    (targetAccepted s.prog.length t →
      exec (.jump rs1 imm) s =
        .next { s with
          pc := t
          F := { Latch.cleared with stalled := true }
          D := { Latch.cleared with stalled := true }
          E := { s.E with result := t }
          M := { s.E with result := t }
          insCompleted := s.insCompleted + (indexOf t - indexOf s.E.pc - 1) }) ∧
    (¬targetAccepted s.prog.length t →
      exec (.jump rs1 imm) s =
        .next { s with E := { s.E with result := t, fault := true }, M := { s.E with result := t, fault := true } })

/-- BZ and BNZ in Execute: not taken they only consume the indicator; taken to an accepted target they redirect with
`D` stalled and the indicator RESOLVED; taken to another they mark the latch. BZ is taken on a set snapshot, BNZ on a
cleared one (43_control.md R310, R313, decisions D10, D12, D13, D16). -/
def Obligations.BranchesResolveOnSnapshot : Prop :=
  ∀ (i : Instr) (imm : Word) (s : State) (t : Word), s.stage = .execute → t = s.E.pc + imm →
    i = .bz imm ∨ i = .bnz imm →
    (s.snapshot = decide (i = .bnz imm) →
      exec i s = .next { s with E := { s.E with result := t }, M := { s.E with result := t }, bp := .none }) ∧
    (s.snapshot = decide (i = .bz imm) → targetAccepted s.prog.length t →
      exec i s =
        .next { s with
          pc := t
          F := Latch.cleared
          D := { Latch.cleared with stalled := true }
          E := { s.E with result := t }
          M := { s.E with result := t }
          bp := .resolved
          insCompleted := s.insCompleted + (indexOf t - indexOf s.E.pc - 1) }) ∧
    (s.snapshot = decide (i = .bz imm) → ¬targetAccepted s.prog.length t →
      exec i s =
        .next { s with
          E := { s.E with result := t, fault := true }
          M := { s.E with result := t, fault := true }
          bp := .none })

/-- HALT does nothing in Execute and Memory, and retires by setting `halted` and counting (43_control.md R300). Its
Decode is HaltRewritesLaterRecords. -/
def Obligations.HaltOnlySetsHaltedAtRetirement : Prop :=
  ∀ s : State,
    codeOfOpcode (opField (encode .halt)) = 11 ∧
    (s.stage = .execute → exec .halt s = .next { s with M := s.E }) ∧
    (s.stage = .memory → s.M.fault = false → exec .halt s = .next { s with W := s.M }) ∧
    (s.stage = .writeback →
      exec .halt s = .next { s with halted := true, insCompleted := s.insCompleted + 1 })

/-- NOP is never live and is a bubble in every stage: only copied forward, never counted, never writing
(43_control.md R316, decision D24). -/
def Obligations.NopIsABubbleEverywhere : Prop :=
  (∀ l : Latch, l.op = .nop → l.live = false) ∧
    ∀ s : State,
      (s.stage = .decode → exec .nop s = .next { s with E := s.D }) ∧
      (s.stage = .execute → exec .nop s = .next { s with M := s.E }) ∧
      (s.stage = .memory → exec .nop s = .next { s with W := s.M }) ∧
      (s.stage = .writeback → s.bp ≠ .resolved → exec .nop s = .next s)

/-! ## Memory and Writeback (40_pipeline.md, 60_exceptions.md) -/

/-- Memory copies a bubble into `W` and does nothing else (R210), passes every instruction without a Memory action
on unchanged (R213), and for JUMP also releases both stalls (43_control.md R306). -/
def Obligations.MemoryPassesAndReleasesJump : Prop :=
  ∀ s : State,
    (¬(s.M.busy = false ∧ s.M.stalled = false ∧ s.M.op ≠ .nop) →
      memoryStage s = .next { s with W := s.M, stage := .memory }) ∧
    (s.stage = .memory → s.M.fault = false →
      (∀ i, accessesData i = false → (∀ rs1 imm, i ≠ .jump rs1 imm) → exec i s = .next { s with W := s.M }) ∧
      ∀ rs1 imm, exec (.jump rs1 imm) s =
        .next { s with
          W := s.M, F := { s.F with stalled := false }, D := { s.D with stalled := false } })

/-- A deferred control fault is raised in Memory, and nothing but the fault record changes (40_pipeline.md R211,
60_exceptions.md R333, decisions D16, D17). -/
def Obligations.DeferredControlFaultIsRaised : Prop :=
  ∀ (i : Instr) (s : State), i ≠ .nop → s.stage = .memory → s.M.fault = true →
    exec i s =
      .next { s with fault := { valid := true, kind := .controlTarget, pc := s.M.pc, addr := s.M.result } }

/-- A data access out of range is raised in Memory, and nothing but the fault record changes (42_loadstore.md R284,
60_exceptions.md R331, R333, decision D17). -/
def Obligations.OutOfRangeAccessIsRaised : Prop :=
  ∀ (i : Instr) (s : State), accessesData i = true → s.stage = .memory → s.M.fault = false →
    Config.dmemWords ≤ s.M.memAddress.toNat →
    exec i s =
      .next { s with
        fault := {
          valid := true
          kind := if destination i = none then .dataStore else .dataLoad
          pc := s.M.pc
          addr := s.M.memAddress } }

/-- Retirement: a destination writer commits its result (R221) and its pending flag is cleared unless `M` holds a live
writer of the same register (R222, the spec's own choice, decision D20; log 19); every retiring instruction counts, and
HALT sets `halted` (R224). -/
def Obligations.RetirementCommitsAndCounts : Prop :=
  ∀ (i : Instr) (s : State), i ≠ .nop → s.stage = .writeback →
    (∀ rd, destination i = some rd →
      exec i s =
        .next { s with
          x := s.x.set rd s.W.result
          valid := if s.M.live = true ∧ writesRegister s.M.op = true ∧ s.M.rd = rd then s.valid
            else s.valid.set rd false
          insCompleted := s.insCompleted + 1 }) ∧
    (destination i = none →
      exec i s =
        .next { s with halted := s.halted || decide (i = .halt), insCompleted := s.insCompleted + 1 })

/-- A cycle in which nothing retires releases the stall of a resolved branch, and otherwise Writeback does nothing
(40_pipeline.md R223, decision D13). -/
def Obligations.EmptyWritebackReleasesBranchStall : Prop :=
  ∀ s : State, ¬(s.W.busy = false ∧ s.W.stalled = false ∧ s.W.op ≠ .nop) →
    (s.bp = .resolved →
      writebackStage s = .next { s with D := { s.D with stalled := false }, bp := .none, stage := .writeback }) ∧
    (s.bp ≠ .resolved → writebackStage s = .next { s with stage := .writeback })

/-! ## Frames: what an instruction leaves unchanged, in every stage -/

/-- The register file, the validity table and the forwarding table: only the instruction's destination register can
change in any of them, the file only in Writeback, the validity bit only as 10_state.md R44 says, and the slot only
as R45 says. -/
def Obligations.FrameOfRegisterTables : Prop :=
  ∀ (i : Instr) (s t : State), exec i s = .next t → ∀ r : RegId,
    (t.x[r] = s.x[r] ∨ s.stage = .writeback ∧ destination i = some r ∧ t.x[r] = s.W.result) ∧
    (t.valid[r] = s.valid[r] ∨
      s.stage = .execute ∧ destination i = some r ∧ t.valid[r] = true ∧
        ((∀ a b c, i ≠ .mul a b c) ∨ s.E.busy = true) ∨
      s.stage = .writeback ∧ destination i = some r ∧ t.valid[r] = false ∧ s.M.writes r = false) ∧
    (t.fwd[r] = s.fwd[r] ∨
      s.stage = .execute ∧ destination i = some r ∧ t.fwd[r] = t.E.result ∧ (∀ a b c, i ≠ .load a b c) ∨
      s.stage = .memory ∧ t.fwd[r] = t.M.result ∧ ∃ a b, i = .load r a b)

/-- The zero flag, the snapshot, the branch-pending indicator and `halted` (10_state.md R62 to R65): each changes only
in the stage and for the instructions its rule names. -/
def Obligations.FrameOfFlags : Prop :=
  ∀ (i : Instr) (s t : State), exec i s = .next t →
    (t.z = s.z ∨
      s.stage = .execute ∧ t.z = decide (t.E.result = 0) ∧
        ((∃ a b c, i = .add a b c) ∨ (∃ a b c, i = .addi a b c) ∨ (∃ a b c, i = .sub a b c) ∨
          (∃ a b c, i = .mul a b c) ∧ s.E.busy = true)) ∧
    (t.snapshot = s.snapshot ∨
      s.stage = .decode ∧ t.snapshot = s.z ∧ ((∃ a, i = .bz a) ∨ (∃ a, i = .bnz a) ∧ s.snapshotOnBnz = true)) ∧
    (t.bp = s.bp ∨
      s.stage = .decode ∧ t.bp = .armed ∧ ((∃ a, i = .bz a) ∨ ∃ a, i = .bnz a) ∨
      s.stage = .execute ∧ t.bp ≠ .armed ∧ ((∃ a, i = .bz a) ∨ ∃ a, i = .bnz a) ∨
      s.stage = .writeback ∧ s.bp = .resolved ∧ t.bp = .none ∧ i = .nop) ∧
    (t.halted = s.halted ∨ s.stage = .writeback ∧ i = .halt ∧ t.halted = true)

/-- Data Memory, the Program Store, the clock and the parameter: every word reads as before except the one a STORE
names by `M.mem_address`; the Program Store changes only in HALT's Decode; no instruction touches the other two. -/
def Obligations.FrameOfMemoryAndProgram : Prop :=
  ∀ (i : Instr) (s t : State), memoryCanonical s → exec i s = .next t →
    (∀ a : Nat, Memory.read t.dmem a = Memory.read s.dmem a ∨
      s.stage = .memory ∧ (∃ b c d, i = .store b c d) ∧ s.M.fault = false ∧ a = s.M.memAddress.toNat ∧
        a < Config.dmemWords ∧ Memory.read t.dmem a = s.M.rs1Value) ∧
    (t.prog = s.prog ∨ s.stage = .decode ∧ i = .halt ∧ t.prog.length = s.prog.length) ∧
    t.clock = s.clock ∧ t.snapshotOnBnz = s.snapshotOnBnz ∧ t.stage = s.stage

/-- The pc, the count, the fault record and the latches: each changes only in the stages, and for the instructions,
that may write it, and only in the fields they write (10_state.md R46, R55, R61, R66; 40_pipeline.md R173, R174). -/
def Obligations.FrameOfControlAndLatches : Prop :=
  ∀ (i : Instr) (s t : State), exec i s = .next t →
    (t.pc = s.pc ∨ s.stage = .fetch ∧ t.pc = s.pc + BitVec.ofNat 32 Config.insnWidth ∨
      s.stage = .execute ∧ t.pc = t.E.result ∧ (isJump i ∨ isBranch i)) ∧
    (t.insCompleted = s.insCompleted ∨ s.stage = .writeback ∧ t.insCompleted = s.insCompleted + 1 ∨
      s.stage = .execute ∧ t.insCompleted = s.insCompleted + (indexOf t.pc - indexOf s.E.pc - 1) ∧
        (isJump i ∨ isBranch i)) ∧
    (t.fault = s.fault ∨ s.stage = .memory ∧ t.fault.valid = true ∧ t.W = s.W) ∧
    (t.F = s.F ∨
      s.stage = .execute ∧ (isBranch i ∧ t.F = Latch.cleared ∨ isJump i ∧ t.F = { Latch.cleared with stalled := true }) ∨
      s.stage = .memory ∧ isJump i ∧ t.F = { s.F with stalled := false }) ∧
    (t.D = s.D ∨ s.stage = .fetch ∧ t.D = s.F ∨
      s.stage = .decode ∧
        (t.D = { s.D with stalled := true } ∨
          t.D = { s.D with rs1Value := materialized s (sourceRs1 i), rs2Value := materialized s (sourceRs2 i) }) ∨
      t.D = { s.D with stalled := false } ∧
        (s.stage = .writeback ∧ i = .nop ∧ s.bp = .resolved ∨
          s.stage = .memory ∧ (isJump i ∨ ∃ a b c, i = .load a b c) ∨
          s.stage = .execute ∧ s.E.busy = true ∧ ∃ a b c, i = .mul a b c) ∨
      s.stage = .execute ∧ (isJump i ∨ isBranch i) ∧ t.D = { Latch.cleared with stalled := true }) ∧
    (t.E = s.E ∨ s.stage = .decode ∧ t.E = t.D ∨
      s.stage = .execute ∧
        t.E = { s.E with
          result := t.E.result
          memAddress := t.E.memAddress
          busy := t.E.busy
          fault := t.E.fault } ∧
        (t.E.busy = s.E.busy ∨ ∃ a b c, i = .mul a b c) ∧
        (t.E.fault = s.E.fault ∨ t.E.fault = true ∧ (isJump i ∨ isBranch i))) ∧
    (t.M = s.M ∨ s.stage = .execute ∧ t.M = t.E ∨
      s.stage = .memory ∧ ((∃ a b c, i = .load a b c) ∨ ∃ a b c, i = .ldr a b c) ∧
        t.M = { s.M with result := Memory.read s.dmem s.M.memAddress.toNat }) ∧
    (t.W = s.W ∨ s.stage = .memory ∧ t.W = t.M)

/-! ## The cycle -/

/-- Each stage procedure runs the instruction its own latch holds when that latch is live, Execute also the MUL whose
second cycle is due, and Fetch the instruction decoded from the record at the pc (40_pipeline.md R171, R203, R212). -/
def Obligations.StagesRunTheirOccupants : Prop :=
  ∀ s : State,
    (s.W.busy = false → s.W.stalled = false → s.W.op ≠ .nop →
      writebackStage s = exec s.W.instr { s with stage := .writeback }) ∧
    (s.M.busy = false → s.M.stalled = false → s.M.op ≠ .nop →
      memoryStage s = exec s.M.instr { s with stage := .memory }) ∧
    (s.E.stalled = false → s.E.op ≠ .nop → s.E.busy = false ∨ s.E.op = .mul →
      executeStage s = exec s.E.instr { s with stage := .execute }) ∧
    (s.D.busy = false → s.D.stalled = false → s.D.op ≠ .nop →
      ¬(s.E.op = .mul ∧ s.E.busy = true ∧ s.E.stalled = false) →
      decodeStage s = exec s.D.instr { s with stage := .decode }) ∧
    ∀ r, s.F.busy = false → s.F.stalled = false → aligned s.pc = true → s.prog[idx s.pc]? = some r →
      fetchStage s = exec (decode r) { s with stage := .fetch, F := latchOfRecord r s.pc }

/-- A step of a core that has not terminated does Writeback, Memory, Execute, Decode and Fetch in that order, stops
after Memory if it raised a fault, and adds 1 to the clock; its Fetch runs the instruction decoded at the pc
(40_pipeline.md R172, decision D18). -/
def Obligations.StepRunsDecodedInstruction : Prop :=
  ∀ (s w m : State), terminated s = false → writebackStage s = .next w → memoryStage w = .next m →
    (m.fault.valid = true → step s = .next { m with clock := s.clock + 1, stage := .writeback }) ∧
    (m.fault.valid = false → ∀ e d : State, executeStage m = .next e → decodeStage e = .next d →
      (∀ f, fetchStage d = .next f → step s = .next { f with clock := s.clock + 1, stage := .writeback }) ∧
      ∀ r, d.F.busy = false → d.F.stalled = false → aligned d.pc = true → d.prog[idx d.pc]? = some r →
        ∃ f, exec (decode r) { d with stage := .fetch, F := latchOfRecord r d.pc } = .next f ∧
          step s = .next { f with clock := s.clock + 1, stage := .writeback })

/-- Every step answers a next state: no instruction and no hazard stops the model. That the cycle of a fault is such a
next state too, with the fault record written and the run ended, and that a step of a terminated core answers the same
state, are the model's choices (log 6, log 1). -/
def Obligations.EveryStepAnswersNext : Prop := ∀ s : State, ∃ t, step s = .next t

/-- A terminated core does not move (40_pipeline.md R233), so a fault record stays (60_exceptions.md R336); any other
step adds exactly 1 to the clock, the cycle of a fault included (R340). -/
def Obligations.ClockCountsEveryCycle : Prop :=
  ∀ s t : State, step s = .next t →
    (s.halted = true ∨ s.insCompleted = s.prog.length ∨ s.fault.valid = true → t = s) ∧
    (s.halted = false → s.insCompleted ≠ s.prog.length → s.fault.valid = false → t.clock = s.clock + 1)

/-- Of a cycle: a register changes only if `W` holds a live writer of it, which writes its result, and `halted`
becomes set exactly when `W` holds a live HALT (10_state.md R41, R62). -/
def Obligations.OnlyRetirementWritesRegisters : Prop :=
  ∀ s t : State, terminated s = false → step s = .next t →
    (∀ r : RegId, t.x[r] = if s.W.writes r = true then s.W.result else s.x[r]) ∧
    (t.halted = true ↔ s.halted = true ∨ s.W.live = true ∧ s.W.op = .halt)

/-- Of a cycle: the count and the pc. A retirement adds 1; a redirect adds the correction and sets the pc to the
target; otherwise the pc stays or advances by one record (10_state.md R46, R61, 43_control.md R304). -/
def Obligations.CountAndPcOfACycle : Prop :=
  ∀ (s t : State) (retired : Int), terminated s = false → step s = .next t →
    retired = (if s.W.live = true then 1 else 0) →
    (raisesFault s → t.pc = s.pc ∧ t.insCompleted = s.insCompleted + retired) ∧
    (¬raisesFault s → ∀ a, redirectsTo s a →
      t.pc = a ∧ t.insCompleted = s.insCompleted + retired + (indexOf a - indexOf s.E.pc - 1)) ∧
    (¬raisesFault s → (∀ a, ¬redirectsTo s a) →
      (t.pc = s.pc ∨ t.pc = s.pc + BitVec.ofNat 32 Config.insnWidth) ∧ t.insCompleted = s.insCompleted + retired)

/-- Of a cycle: the Program Store keeps its length, and changes only where a live HALT is in `D` (10_state.md R49,
20_memory.md R116). -/
def Obligations.ProgramStoreChangesOnlyByHalt : Prop :=
  ∀ s t : State, step s = .next t →
    t.prog.length = s.prog.length ∧
    (t.prog = s.prog ∨ s.D.op = .halt ∧ ∀ k, k ≤ idx s.D.pc → t.prog[k]? = s.prog[k]?)

/-- The cycle of a fault: the record is written from `M`, the instruction ahead still retires, and nothing younger
moves: Data Memory, `fwd`, `F`, `E`, `M`, `W`, the pc, the Program Store and the flags are as they were, and the core
is terminated (60_exceptions.md R333, R334, decisions D17, D18). -/
def Obligations.FaultCycleIsPrecise : Prop :=
  ∀ s t : State, terminated s = false → raisesFault s → step s = .next t →
    t.fault =
      { valid := true
        kind := if s.M.fault = true then .controlTarget else if s.M.op = .store then .dataStore else .dataLoad
        pc := s.M.pc
        addr := if s.M.fault = true then s.M.result else s.M.memAddress } ∧
    (∀ r : RegId, t.x[r] = if s.W.writes r = true then s.W.result else s.x[r]) ∧
    t.dmem = s.dmem ∧ t.fwd = s.fwd ∧ t.F = s.F ∧ t.E = s.E ∧ t.M = s.M ∧ t.W = s.W ∧ t.pc = s.pc ∧
    t.prog = s.prog ∧ t.z = s.z ∧ t.snapshot = s.snapshot ∧ terminated t = true

/-! ## Hazards (70_reset_and_hazards.md) -/

/-- What the multiplexer gives an instruction decoded in this cycle for a source register `r` (40_pipeline.md R191,
derived), in either source field: the value Execute publishes to `r` in this cycle; the word a LOAD of `r` in Memory
takes in this cycle; the value published in an earlier cycle by a writer of `r` in `M` that is no LOAD; and, when no
writer of `r` is left in flight, the register, which Writeback of this cycle may have written. -/
def Obligations.ConsumerReadsForwardedValue : Prop :=
  ∀ (s t : State) (r : RegId) (v : Word), terminated s = false → ¬raisesFault s → step s = .next t →
    decodable s →
    (publishes s r v ∨
      executeLeaves s r ∧ s.valid[r] = true ∧ s.M.writes r = true ∧ s.M.op = .load ∧
        v = Memory.read s.dmem s.M.memAddress.toNat ∨
      executeLeaves s r ∧ s.valid[r] = true ∧ s.M.writes r = true ∧ s.M.op ≠ .load ∧ v = s.fwd[r] ∨
      executeLeaves s r ∧ s.M.writes r = false ∧ s.W.writes r = true ∧ v = s.W.result ∨
      executeLeaves s r ∧ s.valid[r] = false ∧ s.W.writes r = false ∧ v = s.x[r]) →
    (sourceRs1 s.D.instr = some r → t.E.rs1Value = v) ∧ (sourceRs2 s.D.instr = some r → t.E.rs2Value = v)

/-- The LDR forwarding window (R383, decision D21): a consumer directly behind an LDR receives the LDR's effective
address, and is not stalled. -/
def Obligations.LdrConsumerReadsAddress : Prop :=
  ∀ (s t : State) (r : RegId), terminated s = false → ¬raisesFault s → step s = .next t →
    s.D.live = true → s.F.stalled = false → s.F.busy = false → sourceRs1 s.D.instr = some r →
    s.E.live = true → s.E.op = .ldr → s.E.rd = r →
    t.E.rs1Value = s.E.rs1Value + s.E.rs2Value ∧ t.E.stalled = false ∧ t.D.stalled = false

/-- Load-use (R381): a consumer directly behind a LOAD of its first source is held one cycle, then decoded with the
loaded word. -/
def Obligations.LoadUseCostsOneCycle : Prop :=
  ∀ (s t u : State) (r : RegId), terminated s = false → ¬raisesFault s → step s = .next t →
    s.F.busy = false → s.F.stalled = false →
    s.D.live = true → sourceRs1 s.D.instr = some r → s.E.live = true → s.E.op = .load → s.E.rd = r →
    t.D = { s.D with stalled := true } ∧ t.E.live = false ∧ t.pc = s.pc ∧
    (terminated t = false → ¬raisesFault t → step t = .next u →
      u.E.live = true ∧ u.E.instr = s.D.instr ∧
        u.E.rs1Value = Memory.read t.dmem (s.E.rs1Value + s.E.imm).toNat)

/-- Multiply hold (R382): the instruction behind a MUL in its first Execute cycle is held one cycle whatever it reads,
then decoded; if it reads the MUL's destination it receives the product. -/
def Obligations.MulHoldsNextInstructionOneCycle : Prop :=
  ∀ s t u : State, terminated s = false → ¬raisesFault s → step s = .next t →
    s.F.busy = false → s.F.stalled = false →
    s.D.live = true → s.E.live = true → s.E.op = .mul →
    t.D = { s.D with stalled := true } ∧ t.E = { s.E with busy := true } ∧ t.M.live = false ∧ t.pc = s.pc ∧
    (terminated t = false → step t = .next u →
      u.E.live = true ∧ u.E.instr = s.D.instr ∧ u.M.live = true ∧
        (sourceRs1 s.D.instr = some s.E.rd → u.E.rs1Value = s.E.rs1Value * s.E.rs2Value))

/-- The penalty of a control transfer (R386, R387, derived). The cycle that redirects empties `D` and stalls it. Behind
a JUMP the next cycle releases the stalls and fetches the target into `D`, to be decoded in the cycle after. Behind a
taken BZ or BNZ the same holds when the latch ahead of the branch was not live; when it was, `D` is empty and stalled
and the pc held for two cycles more. -/
def Obligations.TargetReachesDecodeAfterPenalty : Prop :=
  ∀ (s t u : State) (a : Word), terminated s = false → ¬raisesFault s → step s = .next t → s.E.fault = false →
    redirectsTo s a →
    waitsForTarget s.prog a t ∧ t.M.live = true ∧
    (s.E.op = .jump → t.F.stalled = true ∧ (terminated t = false → step t = .next u → targetInDecode s.prog a u)) ∧
    (s.E.op ≠ .jump → t.F.stalled = false ∧ t.bp = .resolved ∧
      (terminated t = false → step t = .next u →
        (s.M.live = false → targetInDecode s.prog a u) ∧
        (s.M.live = true → waitsForTarget s.prog a u ∧
          ∀ v w, terminated u = false → step u = .next v →
            waitsForTarget s.prog a v ∧ (terminated v = false → step v = .next w → targetInDecode s.prog a w))))

/-- A LOAD or LDR whose Memory stage comes after a STORE's to the same cell reads the stored word (20_memory.md R112,
R113). -/
def Obligations.LoadAfterStoreReadsStoredWord : Prop :=
  ∀ (s t u v : State) (i : Instr) (rs1 rs2 : RegId) (imm : Word),
    memoryCanonical s → s.stage = .memory → s.M.fault = false → s.M.memAddress.toNat < Config.dmemWords →
    exec (.store rs1 rs2 imm) s = .next t →
    u.stage = .memory → u.dmem = t.dmem → u.M.fault = false → u.M.memAddress = s.M.memAddress →
    (∃ a b c, i = .load a b c) ∨ (∃ a b c, i = .ldr a b c) → exec i u = .next v →
    v.W.result = s.M.rs1Value

/-! ## Invariants of a step -/

/-- Data Memory keeps its canonical form (the model's form, log 5; every access is in range, R284). -/
def Obligations.StepKeepsMemoryCanonical : Prop :=
  ∀ s t : State, memoryCanonical s → step s = .next t → memoryCanonical t

/-- The pc stays `PC_BASE + k * INSN_WIDTH` (10_state.md R47). -/
def Obligations.StepKeepsPcAligned : Prop :=
  ∀ s t : State, pcAligned s → step s = .next t → pcAligned t

/-- The validity invariant (70_reset_and_hazards.md R395) after every cycle that raises no fault. In the cycle of a
fault `W` keeps the instruction that has just retired, so R395's words do not hold of that state (log 13). -/
def Obligations.StepKeepsPendingExact : Prop :=
  ∀ s t : State, pendingExact s → step s = .next t → t.fault.valid = false → pendingExact t

/-- No stall is ever without one of its four sources (10_state.md R55, 70_reset_and_hazards.md R391). -/
def Obligations.StepKeepsStallSources : Prop :=
  ∀ s t : State, stallsHaveSources s → step s = .next t → stallsHaveSources t

/-- The state after reset, and the core after `Init` with any program and either setting of the parameter, meet the
four invariants. -/
def Obligations.FreshCoreMeetsInvariants : Prop :=
  ∀ s : State, (s = State.reset ∨ ∃ b p, s = freshCore b p) →
    memoryCanonical s ∧ pcAligned s ∧ pendingExact s ∧ stallsHaveSources s

/-- No stall lasts: from any state that meets the stall invariant, within three cycles Decode is not stalled at a cycle
boundary or the core has terminated (70_reset_and_hazards.md R381, R382, R386, R387). -/
def Obligations.EveryStallEndsWithinThreeCycles : Prop :=
  ∀ s : State, stallsHaveSources s →
    ∃ k u, k ≤ 3 ∧ Host.Core.run Sys2Proof.core k s = .next u ∧ (u.D.stalled = false ∨ terminated u = true)

/-! ## The host's operations -/

/-- `Init` refuses a load failure, and a program that is empty, over capacity, holds opcode 15, or would wrap; it
accepts every other program (70_reset_and_hazards.md R371, decisions D6, D24; the two parameters of the wrap are log 7).
That the refusal names its condition is the model's choice (log 18). -/
def Obligations.InitRefusesExactlyBadPrograms : Prop :=
  ∀ (b : Bool) (p : List Record),
    init b .failure = .error .loadFailure ∧
    ((∃ s, init b (.records p) = .ok s) ↔
      0 < p.length ∧ p.length ≤ Config.progCapacity ∧ (∀ r ∈ p, (r.extractLsb' 44 4).toNat ≠ 15) ∧
        Config.pcBase.toNat + Config.insnWidth * (p.length + 1) < 2 ^ 32)

/-- A core that `Init` builds: the state of 10_state.md R68, value by value (70_reset_and_hazards.md R370). -/
def Obligations.InitBuildsFreshCore : Prop :=
  ∀ (b : Bool) (p : List Record) (s : State), init b (.records p) = .ok s →
    s.pc = Config.pcBase ∧ (∀ r : RegId, s.x[r] = 0 ∧ s.valid[r] = false ∧ s.fwd[r] = 0) ∧
    (∀ a, Memory.read s.dmem a = 0) ∧ s.prog = p ∧ s.F = Latch.cleared ∧
    (∀ l ∈ [s.D, s.E, s.M, s.W], l = { Latch.cleared with busy := true }) ∧
    s.clock = 0 ∧ s.insCompleted = 0 ∧ s.halted = false ∧ s.bp = .none ∧ s.snapshot = false ∧ s.z = false ∧
    s.fault = { valid := false, kind := .dataLoad, pc := 0, addr := 0 }

/-- `Run` is repeatable: running on with a larger budget is the same as running with it at once, so running again with
the same budget advances no cycle and changes nothing (40_pipeline.md R233). -/
def Obligations.RunIsResumableAndIdempotent : Prop :=
  ∀ (s t : State) (b c : Nat), b ≤ c → run b s = .next t → run c t = run c s ∧ run b t = .next t

/-- `Run` ends by termination or by budget, never beyond the budget, and reports which (40_pipeline.md R231, R234,
decision D27). -/
def Obligations.RunEndsTerminatedOrByBudget : Prop :=
  ∀ (s : State) (b : Nat), ∃ t, run b s = .next t ∧ (terminated t = true ∨ b ≤ t.clock) ∧
    s.clock ≤ t.clock ∧ t.clock ≤ max b s.clock ∧
    ∀ m, (runReport b m s).ending = (if terminated t = true then .terminated else .endedByBudget)

/-- The trace of a cycle, record by record (60_exceptions.md R350, decision D37): W, M, E, D, F in that order, and only
W and M in the cycle of a fault. A record shows the fields of its latch after the stage's own action if the latch was
live as the stage was evaluated, Execute's also for a MUL's second cycle, and "empty or stalled" otherwise. That Fetch's
record is of the latch this cycle fetched is the model's reading (log 11). -/
def Obligations.TraceHasOneRecordPerEvaluatedStage : Prop :=
  ∀ s w m : State, terminated s = false → writebackStage s = .next w → memoryStage w = .next m →
    (raisesFault s → cycleTrace s = [⟨.writeback, shown s.W.live s.W⟩, ⟨.memory, shown s.M.live s.M⟩]) ∧
    (¬raisesFault s → ∀ e d f : State,
      executeStage m = .next e → decodeStage e = .next d → fetchStage d = .next f →
      cycleTrace s =
        [⟨.writeback, shown s.W.live s.W⟩, ⟨.memory, shown s.M.live m.M⟩,
          ⟨.execute, shown (s.E.live || s.E.mulPending) e.E⟩, ⟨.decode, shown e.D.live d.D⟩,
          ⟨.fetch, shown f.F.live f.F⟩])

/-! ## One instruction at a time (70_reset_and_hazards.md R396) -/

/-- The computational instructions, one whole instruction with nothing else in flight: the destination, the zero flag,
the pc and the count, and every other register and all of Data Memory unchanged (41_alu.md R250 to R260). -/
def Obligations.SequentialAluInstruction : Prop :=
  ∀ (s : State) (i : Instr) (rd r1 r2 : RegId) (imm v : Word) (z : Bool),
    terminated s = false → aligned s.pc = true → s.prog[idx s.pc]? = some (encode i) →
    (i = .movc rd imm ∧ v = imm ∧ z = s.z ∨
      i = .add rd r1 r2 ∧ v = s.x[r1] + s.x[r2] ∧ z = decide (v = 0) ∨
      i = .addi rd r1 imm ∧ v = s.x[r1] + imm ∧ z = decide (v = 0) ∨
      i = .sub rd r1 r2 ∧ v = s.x[r1] - s.x[r2] ∧ z = decide (v = 0) ∨
      i = .mul rd r1 r2 ∧ v = s.x[r1] * s.x[r2] ∧ z = decide (v = 0) ∨
      i = .and rd r1 r2 ∧ v = s.x[r1] &&& s.x[r2] ∧ z = s.z ∨
      i = .or rd r1 r2 ∧ v = s.x[r1] ||| s.x[r2] ∧ z = s.z ∨
      i = .xor rd r1 r2 ∧ v = s.x[r1] ^^^ s.x[r2] ∧ z = s.z) →
    ∃ t, seqStep s = .next t ∧ t.x = s.x.set rd v ∧ t.z = z ∧ t.dmem = s.dmem ∧ t.prog = s.prog ∧
      t.pc = s.pc + BitVec.ofNat 32 Config.insnWidth ∧ t.insCompleted = s.insCompleted + 1 ∧
      t.fault = s.fault ∧ t.halted = s.halted ∧ t.snapshot = s.snapshot

/-- LOAD, LDR and STORE, one whole instruction with nothing else in flight (42_loadstore.md R280 to R284, decision D17;
the interpreter is log 14): the word moved, or the fault recorded and nothing retired, read or written. -/
def Obligations.SequentialMemoryInstruction : Prop :=
  ∀ (s : State) (i : Instr) (rd r1 r2 : RegId) (imm a : Word),
    terminated s = false → memoryCanonical s → aligned s.pc = true → s.prog[idx s.pc]? = some (encode i) →
    (i = .load rd r1 imm ∧ a = s.x[r1] + imm ∨ i = .ldr rd r1 r2 ∧ a = s.x[r1] + s.x[r2] ∨
      i = .store r1 r2 imm ∧ a = s.x[r2] + imm) →
    ∃ t, seqStep s = .next t ∧ t.pc = s.pc + BitVec.ofNat 32 Config.insnWidth ∧ t.prog = s.prog ∧ t.z = s.z ∧
      t.snapshot = s.snapshot ∧ t.halted = s.halted ∧ t.clock = s.clock ∧
      (a.toNat < Config.dmemWords →
        t.insCompleted = s.insCompleted + 1 ∧ t.fault = s.fault ∧
        (destination i = some rd → t.x = s.x.set rd (Memory.read s.dmem a.toNat) ∧ t.dmem = s.dmem) ∧
        (destination i = none → t.x = s.x ∧ Memory.read t.dmem a.toNat = s.x[r1] ∧
          ∀ b : Nat, b ≠ a.toNat → Memory.read t.dmem b = Memory.read s.dmem b)) ∧
      (Config.dmemWords ≤ a.toNat →
        t.insCompleted = s.insCompleted ∧ t.x = s.x ∧ t.dmem = s.dmem ∧
          t.fault = {
            valid := true
            kind := if destination i = none then .dataStore else .dataLoad
            pc := s.pc
            addr := a })

/-- JUMP, BZ, BNZ and HALT, one whole instruction with nothing else in flight: taken to an accepted target, taken to
another (the deferred fault, nothing retired), or not taken (43_control.md R300 to R315, decisions D10, D11, D14, D16;
the interpreter is log 14). -/
def Obligations.SequentialControlInstruction : Prop :=
  ∀ (s : State) (i : Instr) (r1 : RegId) (imm a : Word) (taken : Bool),
    terminated s = false → aligned s.pc = true → s.prog[idx s.pc]? = some (encode i) →
    (i = .jump r1 imm ∧ a = s.x[r1] + imm ∧ taken = true ∨
      i = .bz imm ∧ a = s.pc + imm ∧ taken = s.z ∨
      i = .bnz imm ∧ a = s.pc + imm ∧ taken = !(if s.snapshotOnBnz = true then s.z else s.snapshot) ∨
      i = .halt ∧ taken = false) →
    ∃ t, seqStep s = .next t ∧ t.x = s.x ∧ t.dmem = s.dmem ∧ t.z = s.z ∧ t.halted = decide (i = .halt) ∧
      t.clock = s.clock ∧
      t.snapshot =
        (if i = .bz imm ∨ i = .bnz imm ∧ s.snapshotOnBnz = true then s.z else s.snapshot) ∧
      t.prog =
        (if i = .halt then
          s.prog.take (idx s.pc + 1) ++ List.replicate (s.prog.length - (idx s.pc + 1)) (encode .nop)
        else s.prog) ∧
      (taken = true → targetAccepted s.prog.length a →
        t.pc = a ∧ t.insCompleted = s.insCompleted + (indexOf a - indexOf s.pc) ∧ t.fault = s.fault) ∧
      (taken = true → ¬targetAccepted s.prog.length a →
        t.pc = s.pc + BitVec.ofNat 32 Config.insnWidth ∧ t.insCompleted = s.insCompleted ∧
          t.fault = { valid := true, kind := .controlTarget, pc := s.pc, addr := a }) ∧
      (taken = false →
        t.pc = s.pc + BitVec.ofNat 32 Config.insnWidth ∧ t.insCompleted = s.insCompleted + 1 ∧ t.fault = s.fault)
end

