-- ==== Sys2Proof/Laws/Memory.lean ====
section
/-! SUPPORT. Data Memory: a read after a write, and the canonical form that every operation keeps. -/

namespace Sys2Proof.Machine

/-- Cells all beyond `a` are read as 0 at `a`. -/
theorem Memory.read_of_lt (m : Memory) (a : Nat) (h : ∀ c ∈ m, a < c.1) : Memory.read m a = 0 := by
  induction m with
  | nil => rfl
  | cons c m ih =>
    obtain ⟨b, w⟩ := c
    have hb : a < b := h (b, w) (by simp)
    rw [Memory.read, if_neg (by omega)]
    exact ih fun c hc => h c (by simp [hc])

/-- A write does what it says to the cell it names and to no other. -/
theorem Memory.read_write (m : Memory) (h : Memory.wf m) (a b : Nat) (v : Word) :
    Memory.read (Memory.write m a v) b = if b = a then v else Memory.read m b := by
  obtain ⟨hp, hc⟩ := h
  induction m with
  | nil => by_cases hv : v = 0#32 <;> by_cases hb : b = a <;> simp [Memory.write, Memory.read, hv, hb]
  | cons c m ih =>
    obtain ⟨k, w⟩ := c
    obtain ⟨hk, hp⟩ := List.pairwise_cons.mp hp
    have ih := ih hp fun c hm => hc c (by simp [hm])
    have hle : ∀ e, e ≤ k → Memory.read m e = 0 := fun e he =>
      Memory.read_of_lt m e fun c hm => lt_of_le_of_lt he (hk c hm)
    rcases lt_trichotomy a k with hlt | rfl | hgt
    · rw [Memory.write, if_pos hlt]
      by_cases hv : v = 0#32 <;> by_cases hb : b = a
      · subst hb; subst hv; simp [Memory.read, hle b (le_of_lt hlt), Nat.ne_of_lt hlt]
      · simp [hv, hb]
      · simp [Memory.read, hv, hb]
      · simp [Memory.read, hv, hb]
    · rw [Memory.write, if_neg (lt_irrefl _), if_pos rfl]
      by_cases hv : v = 0#32 <;> by_cases hb : b = a
      · subst hb; simp [hv, hle b le_rfl]
      · simp [Memory.read, hv, hb]
      · simp [Memory.read, hv, hb]
      · simp [Memory.read, hv, hb]
    · rw [Memory.write, if_neg (by omega), if_neg (by omega), Memory.read, ih, Memory.read]
      by_cases hb : b = k
      · subst hb; rw [if_pos rfl, if_neg (by omega), if_pos rfl]
      · rw [if_neg hb, if_neg hb]

/-- Every cell of a memory after a write was there before or is the one written. -/
theorem Memory.mem_write {m : Memory} {a : Nat} {v : Word} {c : Cell} (h : c ∈ Memory.write m a v) :
    c ∈ m ∨ (c = (a, v) ∧ v ≠ 0) := by
  induction m with
  | nil => by_cases hv : v = 0#32 <;> simp_all [Memory.write]
  | cons d m ih =>
    obtain ⟨k, w⟩ := d
    rw [Memory.write] at h
    split_ifs at h with h1 h2 h3 h4 <;> simp only [List.mem_cons] at h ⊢
    · exact .inl h
    · rcases h with rfl | h
      · exact .inr ⟨rfl, h2⟩
      · exact .inl h
    · exact .inl (.inr h)
    · rcases h with rfl | h
      · exact .inr ⟨rfl, h4⟩
      · exact .inl (.inr h)
    · rcases h with h | h
      · exact .inl (.inl h)
      · exact (ih h).imp .inr id

/-- A write of a cell in range keeps the canonical form. -/
theorem Memory.wf_write {m : Memory} (h : Memory.wf m) {a : Nat} (ha : a < Config.dmemWords) (v : Word) :
    Memory.wf (Memory.write m a v) := by
  refine ⟨?_, fun c hc => ?_⟩
  · obtain ⟨hp, -⟩ := h
    induction m with
    | nil => by_cases hv : v = 0#32 <;> simp [Memory.write, hv]
    | cons d m ih =>
      obtain ⟨k, w⟩ := d
      obtain ⟨hk, hp'⟩ := List.pairwise_cons.mp hp
      rw [Memory.write]
      split_ifs with h1 h2 h3 h4
      · exact hp
      · refine List.pairwise_cons.mpr ⟨fun c hc => ?_, hp⟩
        rcases List.mem_cons.mp hc with rfl | hc
        · exact h1
        · exact lt_trans h1 (hk c hc)
      · exact hp'
      · subst h3; exact List.pairwise_cons.mpr ⟨hk, hp'⟩
      · refine List.pairwise_cons.mpr ⟨fun c hc => ?_, ih hp'⟩
        rcases Memory.mem_write hc with hc | ⟨rfl, -⟩
        · exact hk c hc
        · show k < a
          omega
  · rcases Memory.mem_write hc with hc | ⟨rfl, hv⟩
    · exact h.2 c hc
    · exact ⟨ha, hv⟩

/-- A memory with nothing listed, as after reset, is canonical. -/
theorem Memory.wf_nil : Memory.wf [] := by decide

end Sys2Proof.Machine
end

