-- ==== Sys2Proof/Laws/State.lean ====
section
/-! SUPPORT. What each named update of the state leaves in each field: one lemma a field and update, true by rfl. -/

namespace Sys2Proof.Machine

/-- Two values of `Latch` with the same fields are the same. -/
@[ext] theorem Latch.ext {s t : Latch}
    (op : s.op = t.op) (rd : s.rd = t.rd) (rs1 : s.rs1 = t.rs1) (rs2 : s.rs2 = t.rs2) (imm : s.imm = t.imm)
    (pc : s.pc = t.pc) (rs1Value : s.rs1Value = t.rs1Value) (rs2Value : s.rs2Value = t.rs2Value)
    (result : s.result = t.result) (memAddress : s.memAddress = t.memAddress) (busy : s.busy = t.busy)
    (stalled : s.stalled = t.stalled) (fault : s.fault = t.fault) :
    s = t := by
  cases s
  cases t
  simp_all only

/-- Two values of `State` with the same fields are the same. -/
@[ext] theorem State.ext {s t : State}
    (x : s.x = t.x) (valid : s.valid = t.valid) (fwd : s.fwd = t.fwd) (pc : s.pc = t.pc) (prog : s.prog = t.prog)
    (dmem : s.dmem = t.dmem) (F : s.F = t.F) (D : s.D = t.D) (E : s.E = t.E) (M : s.M = t.M) (W : s.W = t.W)
    (clock : s.clock = t.clock) (insCompleted : s.insCompleted = t.insCompleted) (halted : s.halted = t.halted)
    (bp : s.bp = t.bp) (snapshot : s.snapshot = t.snapshot) (z : s.z = t.z) (fault : s.fault = t.fault)
    (snapshotOnBnz : s.snapshotOnBnz = t.snapshotOnBnz) (stage : s.stage = t.stage) :
    s = t := by
  cases s
  cases t
  simp_all only

section
variable (s : State) (g : Stage)
@[simp] theorem State.atStage_x : (s.atStage g).x = s.x := rfl
@[simp] theorem State.atStage_valid : (s.atStage g).valid = s.valid := rfl
@[simp] theorem State.atStage_fwd : (s.atStage g).fwd = s.fwd := rfl
@[simp] theorem State.atStage_pc : (s.atStage g).pc = s.pc := rfl
@[simp] theorem State.atStage_prog : (s.atStage g).prog = s.prog := rfl
@[simp] theorem State.atStage_dmem : (s.atStage g).dmem = s.dmem := rfl
@[simp] theorem State.atStage_F : (s.atStage g).F = s.F := rfl
@[simp] theorem State.atStage_D : (s.atStage g).D = s.D := rfl
@[simp] theorem State.atStage_E : (s.atStage g).E = s.E := rfl
@[simp] theorem State.atStage_M : (s.atStage g).M = s.M := rfl
@[simp] theorem State.atStage_W : (s.atStage g).W = s.W := rfl
@[simp] theorem State.atStage_clock : (s.atStage g).clock = s.clock := rfl
@[simp] theorem State.atStage_insCompleted : (s.atStage g).insCompleted = s.insCompleted := rfl
@[simp] theorem State.atStage_halted : (s.atStage g).halted = s.halted := rfl
@[simp] theorem State.atStage_bp : (s.atStage g).bp = s.bp := rfl
@[simp] theorem State.atStage_snapshot : (s.atStage g).snapshot = s.snapshot := rfl
@[simp] theorem State.atStage_z : (s.atStage g).z = s.z := rfl
@[simp] theorem State.atStage_fault : (s.atStage g).fault = s.fault := rfl
@[simp] theorem State.atStage_snapshotOnBnz : (s.atStage g).snapshotOnBnz = s.snapshotOnBnz := rfl
@[simp] theorem State.atStage_stage : (s.atStage g).stage = g := rfl
end

section
variable (s : State) (r : RegId) (v : Word)
@[simp] theorem State.setReg_x : (s.setReg r v).x = s.x.set r v := rfl
@[simp] theorem State.setReg_valid : (s.setReg r v).valid = s.valid := rfl
@[simp] theorem State.setReg_fwd : (s.setReg r v).fwd = s.fwd := rfl
@[simp] theorem State.setReg_pc : (s.setReg r v).pc = s.pc := rfl
@[simp] theorem State.setReg_prog : (s.setReg r v).prog = s.prog := rfl
@[simp] theorem State.setReg_dmem : (s.setReg r v).dmem = s.dmem := rfl
@[simp] theorem State.setReg_F : (s.setReg r v).F = s.F := rfl
@[simp] theorem State.setReg_D : (s.setReg r v).D = s.D := rfl
@[simp] theorem State.setReg_E : (s.setReg r v).E = s.E := rfl
@[simp] theorem State.setReg_M : (s.setReg r v).M = s.M := rfl
@[simp] theorem State.setReg_W : (s.setReg r v).W = s.W := rfl
@[simp] theorem State.setReg_clock : (s.setReg r v).clock = s.clock := rfl
@[simp] theorem State.setReg_insCompleted : (s.setReg r v).insCompleted = s.insCompleted := rfl
@[simp] theorem State.setReg_halted : (s.setReg r v).halted = s.halted := rfl
@[simp] theorem State.setReg_bp : (s.setReg r v).bp = s.bp := rfl
@[simp] theorem State.setReg_snapshot : (s.setReg r v).snapshot = s.snapshot := rfl
@[simp] theorem State.setReg_z : (s.setReg r v).z = s.z := rfl
@[simp] theorem State.setReg_fault : (s.setReg r v).fault = s.fault := rfl
@[simp] theorem State.setReg_snapshotOnBnz : (s.setReg r v).snapshotOnBnz = s.snapshotOnBnz := rfl
@[simp] theorem State.setReg_stage : (s.setReg r v).stage = s.stage := rfl
end

section
variable (s : State) (r : RegId) (b : Bool)
@[simp] theorem State.setValid_x : (s.setValid r b).x = s.x := rfl
@[simp] theorem State.setValid_valid : (s.setValid r b).valid = s.valid.set r b := rfl
@[simp] theorem State.setValid_fwd : (s.setValid r b).fwd = s.fwd := rfl
@[simp] theorem State.setValid_pc : (s.setValid r b).pc = s.pc := rfl
@[simp] theorem State.setValid_prog : (s.setValid r b).prog = s.prog := rfl
@[simp] theorem State.setValid_dmem : (s.setValid r b).dmem = s.dmem := rfl
@[simp] theorem State.setValid_F : (s.setValid r b).F = s.F := rfl
@[simp] theorem State.setValid_D : (s.setValid r b).D = s.D := rfl
@[simp] theorem State.setValid_E : (s.setValid r b).E = s.E := rfl
@[simp] theorem State.setValid_M : (s.setValid r b).M = s.M := rfl
@[simp] theorem State.setValid_W : (s.setValid r b).W = s.W := rfl
@[simp] theorem State.setValid_clock : (s.setValid r b).clock = s.clock := rfl
@[simp] theorem State.setValid_insCompleted : (s.setValid r b).insCompleted = s.insCompleted := rfl
@[simp] theorem State.setValid_halted : (s.setValid r b).halted = s.halted := rfl
@[simp] theorem State.setValid_bp : (s.setValid r b).bp = s.bp := rfl
@[simp] theorem State.setValid_snapshot : (s.setValid r b).snapshot = s.snapshot := rfl
@[simp] theorem State.setValid_z : (s.setValid r b).z = s.z := rfl
@[simp] theorem State.setValid_fault : (s.setValid r b).fault = s.fault := rfl
@[simp] theorem State.setValid_snapshotOnBnz : (s.setValid r b).snapshotOnBnz = s.snapshotOnBnz := rfl
@[simp] theorem State.setValid_stage : (s.setValid r b).stage = s.stage := rfl
end

section
variable (s : State) (r : RegId) (v : Word)
@[simp] theorem State.setFwd_x : (s.setFwd r v).x = s.x := rfl
@[simp] theorem State.setFwd_valid : (s.setFwd r v).valid = s.valid := rfl
@[simp] theorem State.setFwd_fwd : (s.setFwd r v).fwd = s.fwd.set r v := rfl
@[simp] theorem State.setFwd_pc : (s.setFwd r v).pc = s.pc := rfl
@[simp] theorem State.setFwd_prog : (s.setFwd r v).prog = s.prog := rfl
@[simp] theorem State.setFwd_dmem : (s.setFwd r v).dmem = s.dmem := rfl
@[simp] theorem State.setFwd_F : (s.setFwd r v).F = s.F := rfl
@[simp] theorem State.setFwd_D : (s.setFwd r v).D = s.D := rfl
@[simp] theorem State.setFwd_E : (s.setFwd r v).E = s.E := rfl
@[simp] theorem State.setFwd_M : (s.setFwd r v).M = s.M := rfl
@[simp] theorem State.setFwd_W : (s.setFwd r v).W = s.W := rfl
@[simp] theorem State.setFwd_clock : (s.setFwd r v).clock = s.clock := rfl
@[simp] theorem State.setFwd_insCompleted : (s.setFwd r v).insCompleted = s.insCompleted := rfl
@[simp] theorem State.setFwd_halted : (s.setFwd r v).halted = s.halted := rfl
@[simp] theorem State.setFwd_bp : (s.setFwd r v).bp = s.bp := rfl
@[simp] theorem State.setFwd_snapshot : (s.setFwd r v).snapshot = s.snapshot := rfl
@[simp] theorem State.setFwd_z : (s.setFwd r v).z = s.z := rfl
@[simp] theorem State.setFwd_fault : (s.setFwd r v).fault = s.fault := rfl
@[simp] theorem State.setFwd_snapshotOnBnz : (s.setFwd r v).snapshotOnBnz = s.snapshotOnBnz := rfl
@[simp] theorem State.setFwd_stage : (s.setFwd r v).stage = s.stage := rfl
end

section
variable (s : State) (a : Word)
@[simp] theorem State.setPc_x : (s.setPc a).x = s.x := rfl
@[simp] theorem State.setPc_valid : (s.setPc a).valid = s.valid := rfl
@[simp] theorem State.setPc_fwd : (s.setPc a).fwd = s.fwd := rfl
@[simp] theorem State.setPc_pc : (s.setPc a).pc = a := rfl
@[simp] theorem State.setPc_prog : (s.setPc a).prog = s.prog := rfl
@[simp] theorem State.setPc_dmem : (s.setPc a).dmem = s.dmem := rfl
@[simp] theorem State.setPc_F : (s.setPc a).F = s.F := rfl
@[simp] theorem State.setPc_D : (s.setPc a).D = s.D := rfl
@[simp] theorem State.setPc_E : (s.setPc a).E = s.E := rfl
@[simp] theorem State.setPc_M : (s.setPc a).M = s.M := rfl
@[simp] theorem State.setPc_W : (s.setPc a).W = s.W := rfl
@[simp] theorem State.setPc_clock : (s.setPc a).clock = s.clock := rfl
@[simp] theorem State.setPc_insCompleted : (s.setPc a).insCompleted = s.insCompleted := rfl
@[simp] theorem State.setPc_halted : (s.setPc a).halted = s.halted := rfl
@[simp] theorem State.setPc_bp : (s.setPc a).bp = s.bp := rfl
@[simp] theorem State.setPc_snapshot : (s.setPc a).snapshot = s.snapshot := rfl
@[simp] theorem State.setPc_z : (s.setPc a).z = s.z := rfl
@[simp] theorem State.setPc_fault : (s.setPc a).fault = s.fault := rfl
@[simp] theorem State.setPc_snapshotOnBnz : (s.setPc a).snapshotOnBnz = s.snapshotOnBnz := rfl
@[simp] theorem State.setPc_stage : (s.setPc a).stage = s.stage := rfl
end

section
variable (s : State) (p : List Record)
@[simp] theorem State.setProg_x : (s.setProg p).x = s.x := rfl
@[simp] theorem State.setProg_valid : (s.setProg p).valid = s.valid := rfl
@[simp] theorem State.setProg_fwd : (s.setProg p).fwd = s.fwd := rfl
@[simp] theorem State.setProg_pc : (s.setProg p).pc = s.pc := rfl
@[simp] theorem State.setProg_prog : (s.setProg p).prog = p := rfl
@[simp] theorem State.setProg_dmem : (s.setProg p).dmem = s.dmem := rfl
@[simp] theorem State.setProg_F : (s.setProg p).F = s.F := rfl
@[simp] theorem State.setProg_D : (s.setProg p).D = s.D := rfl
@[simp] theorem State.setProg_E : (s.setProg p).E = s.E := rfl
@[simp] theorem State.setProg_M : (s.setProg p).M = s.M := rfl
@[simp] theorem State.setProg_W : (s.setProg p).W = s.W := rfl
@[simp] theorem State.setProg_clock : (s.setProg p).clock = s.clock := rfl
@[simp] theorem State.setProg_insCompleted : (s.setProg p).insCompleted = s.insCompleted := rfl
@[simp] theorem State.setProg_halted : (s.setProg p).halted = s.halted := rfl
@[simp] theorem State.setProg_bp : (s.setProg p).bp = s.bp := rfl
@[simp] theorem State.setProg_snapshot : (s.setProg p).snapshot = s.snapshot := rfl
@[simp] theorem State.setProg_z : (s.setProg p).z = s.z := rfl
@[simp] theorem State.setProg_fault : (s.setProg p).fault = s.fault := rfl
@[simp] theorem State.setProg_snapshotOnBnz : (s.setProg p).snapshotOnBnz = s.snapshotOnBnz := rfl
@[simp] theorem State.setProg_stage : (s.setProg p).stage = s.stage := rfl
end

section
variable (s : State) (m : Memory)
@[simp] theorem State.setMem_x : (s.setMem m).x = s.x := rfl
@[simp] theorem State.setMem_valid : (s.setMem m).valid = s.valid := rfl
@[simp] theorem State.setMem_fwd : (s.setMem m).fwd = s.fwd := rfl
@[simp] theorem State.setMem_pc : (s.setMem m).pc = s.pc := rfl
@[simp] theorem State.setMem_prog : (s.setMem m).prog = s.prog := rfl
@[simp] theorem State.setMem_dmem : (s.setMem m).dmem = m := rfl
@[simp] theorem State.setMem_F : (s.setMem m).F = s.F := rfl
@[simp] theorem State.setMem_D : (s.setMem m).D = s.D := rfl
@[simp] theorem State.setMem_E : (s.setMem m).E = s.E := rfl
@[simp] theorem State.setMem_M : (s.setMem m).M = s.M := rfl
@[simp] theorem State.setMem_W : (s.setMem m).W = s.W := rfl
@[simp] theorem State.setMem_clock : (s.setMem m).clock = s.clock := rfl
@[simp] theorem State.setMem_insCompleted : (s.setMem m).insCompleted = s.insCompleted := rfl
@[simp] theorem State.setMem_halted : (s.setMem m).halted = s.halted := rfl
@[simp] theorem State.setMem_bp : (s.setMem m).bp = s.bp := rfl
@[simp] theorem State.setMem_snapshot : (s.setMem m).snapshot = s.snapshot := rfl
@[simp] theorem State.setMem_z : (s.setMem m).z = s.z := rfl
@[simp] theorem State.setMem_fault : (s.setMem m).fault = s.fault := rfl
@[simp] theorem State.setMem_snapshotOnBnz : (s.setMem m).snapshotOnBnz = s.snapshotOnBnz := rfl
@[simp] theorem State.setMem_stage : (s.setMem m).stage = s.stage := rfl
end

section
variable (s : State) (l : Latch)
@[simp] theorem State.setF_x : (s.setF l).x = s.x := rfl
@[simp] theorem State.setF_valid : (s.setF l).valid = s.valid := rfl
@[simp] theorem State.setF_fwd : (s.setF l).fwd = s.fwd := rfl
@[simp] theorem State.setF_pc : (s.setF l).pc = s.pc := rfl
@[simp] theorem State.setF_prog : (s.setF l).prog = s.prog := rfl
@[simp] theorem State.setF_dmem : (s.setF l).dmem = s.dmem := rfl
@[simp] theorem State.setF_F : (s.setF l).F = l := rfl
@[simp] theorem State.setF_D : (s.setF l).D = s.D := rfl
@[simp] theorem State.setF_E : (s.setF l).E = s.E := rfl
@[simp] theorem State.setF_M : (s.setF l).M = s.M := rfl
@[simp] theorem State.setF_W : (s.setF l).W = s.W := rfl
@[simp] theorem State.setF_clock : (s.setF l).clock = s.clock := rfl
@[simp] theorem State.setF_insCompleted : (s.setF l).insCompleted = s.insCompleted := rfl
@[simp] theorem State.setF_halted : (s.setF l).halted = s.halted := rfl
@[simp] theorem State.setF_bp : (s.setF l).bp = s.bp := rfl
@[simp] theorem State.setF_snapshot : (s.setF l).snapshot = s.snapshot := rfl
@[simp] theorem State.setF_z : (s.setF l).z = s.z := rfl
@[simp] theorem State.setF_fault : (s.setF l).fault = s.fault := rfl
@[simp] theorem State.setF_snapshotOnBnz : (s.setF l).snapshotOnBnz = s.snapshotOnBnz := rfl
@[simp] theorem State.setF_stage : (s.setF l).stage = s.stage := rfl
end

section
variable (s : State) (l : Latch)
@[simp] theorem State.setD_x : (s.setD l).x = s.x := rfl
@[simp] theorem State.setD_valid : (s.setD l).valid = s.valid := rfl
@[simp] theorem State.setD_fwd : (s.setD l).fwd = s.fwd := rfl
@[simp] theorem State.setD_pc : (s.setD l).pc = s.pc := rfl
@[simp] theorem State.setD_prog : (s.setD l).prog = s.prog := rfl
@[simp] theorem State.setD_dmem : (s.setD l).dmem = s.dmem := rfl
@[simp] theorem State.setD_F : (s.setD l).F = s.F := rfl
@[simp] theorem State.setD_D : (s.setD l).D = l := rfl
@[simp] theorem State.setD_E : (s.setD l).E = s.E := rfl
@[simp] theorem State.setD_M : (s.setD l).M = s.M := rfl
@[simp] theorem State.setD_W : (s.setD l).W = s.W := rfl
@[simp] theorem State.setD_clock : (s.setD l).clock = s.clock := rfl
@[simp] theorem State.setD_insCompleted : (s.setD l).insCompleted = s.insCompleted := rfl
@[simp] theorem State.setD_halted : (s.setD l).halted = s.halted := rfl
@[simp] theorem State.setD_bp : (s.setD l).bp = s.bp := rfl
@[simp] theorem State.setD_snapshot : (s.setD l).snapshot = s.snapshot := rfl
@[simp] theorem State.setD_z : (s.setD l).z = s.z := rfl
@[simp] theorem State.setD_fault : (s.setD l).fault = s.fault := rfl
@[simp] theorem State.setD_snapshotOnBnz : (s.setD l).snapshotOnBnz = s.snapshotOnBnz := rfl
@[simp] theorem State.setD_stage : (s.setD l).stage = s.stage := rfl
end

section
variable (s : State) (l : Latch)
@[simp] theorem State.setE_x : (s.setE l).x = s.x := rfl
@[simp] theorem State.setE_valid : (s.setE l).valid = s.valid := rfl
@[simp] theorem State.setE_fwd : (s.setE l).fwd = s.fwd := rfl
@[simp] theorem State.setE_pc : (s.setE l).pc = s.pc := rfl
@[simp] theorem State.setE_prog : (s.setE l).prog = s.prog := rfl
@[simp] theorem State.setE_dmem : (s.setE l).dmem = s.dmem := rfl
@[simp] theorem State.setE_F : (s.setE l).F = s.F := rfl
@[simp] theorem State.setE_D : (s.setE l).D = s.D := rfl
@[simp] theorem State.setE_E : (s.setE l).E = l := rfl
@[simp] theorem State.setE_M : (s.setE l).M = s.M := rfl
@[simp] theorem State.setE_W : (s.setE l).W = s.W := rfl
@[simp] theorem State.setE_clock : (s.setE l).clock = s.clock := rfl
@[simp] theorem State.setE_insCompleted : (s.setE l).insCompleted = s.insCompleted := rfl
@[simp] theorem State.setE_halted : (s.setE l).halted = s.halted := rfl
@[simp] theorem State.setE_bp : (s.setE l).bp = s.bp := rfl
@[simp] theorem State.setE_snapshot : (s.setE l).snapshot = s.snapshot := rfl
@[simp] theorem State.setE_z : (s.setE l).z = s.z := rfl
@[simp] theorem State.setE_fault : (s.setE l).fault = s.fault := rfl
@[simp] theorem State.setE_snapshotOnBnz : (s.setE l).snapshotOnBnz = s.snapshotOnBnz := rfl
@[simp] theorem State.setE_stage : (s.setE l).stage = s.stage := rfl
end

section
variable (s : State) (l : Latch)
@[simp] theorem State.setM_x : (s.setM l).x = s.x := rfl
@[simp] theorem State.setM_valid : (s.setM l).valid = s.valid := rfl
@[simp] theorem State.setM_fwd : (s.setM l).fwd = s.fwd := rfl
@[simp] theorem State.setM_pc : (s.setM l).pc = s.pc := rfl
@[simp] theorem State.setM_prog : (s.setM l).prog = s.prog := rfl
@[simp] theorem State.setM_dmem : (s.setM l).dmem = s.dmem := rfl
@[simp] theorem State.setM_F : (s.setM l).F = s.F := rfl
@[simp] theorem State.setM_D : (s.setM l).D = s.D := rfl
@[simp] theorem State.setM_E : (s.setM l).E = s.E := rfl
@[simp] theorem State.setM_M : (s.setM l).M = l := rfl
@[simp] theorem State.setM_W : (s.setM l).W = s.W := rfl
@[simp] theorem State.setM_clock : (s.setM l).clock = s.clock := rfl
@[simp] theorem State.setM_insCompleted : (s.setM l).insCompleted = s.insCompleted := rfl
@[simp] theorem State.setM_halted : (s.setM l).halted = s.halted := rfl
@[simp] theorem State.setM_bp : (s.setM l).bp = s.bp := rfl
@[simp] theorem State.setM_snapshot : (s.setM l).snapshot = s.snapshot := rfl
@[simp] theorem State.setM_z : (s.setM l).z = s.z := rfl
@[simp] theorem State.setM_fault : (s.setM l).fault = s.fault := rfl
@[simp] theorem State.setM_snapshotOnBnz : (s.setM l).snapshotOnBnz = s.snapshotOnBnz := rfl
@[simp] theorem State.setM_stage : (s.setM l).stage = s.stage := rfl
end

section
variable (s : State) (l : Latch)
@[simp] theorem State.setW_x : (s.setW l).x = s.x := rfl
@[simp] theorem State.setW_valid : (s.setW l).valid = s.valid := rfl
@[simp] theorem State.setW_fwd : (s.setW l).fwd = s.fwd := rfl
@[simp] theorem State.setW_pc : (s.setW l).pc = s.pc := rfl
@[simp] theorem State.setW_prog : (s.setW l).prog = s.prog := rfl
@[simp] theorem State.setW_dmem : (s.setW l).dmem = s.dmem := rfl
@[simp] theorem State.setW_F : (s.setW l).F = s.F := rfl
@[simp] theorem State.setW_D : (s.setW l).D = s.D := rfl
@[simp] theorem State.setW_E : (s.setW l).E = s.E := rfl
@[simp] theorem State.setW_M : (s.setW l).M = s.M := rfl
@[simp] theorem State.setW_W : (s.setW l).W = l := rfl
@[simp] theorem State.setW_clock : (s.setW l).clock = s.clock := rfl
@[simp] theorem State.setW_insCompleted : (s.setW l).insCompleted = s.insCompleted := rfl
@[simp] theorem State.setW_halted : (s.setW l).halted = s.halted := rfl
@[simp] theorem State.setW_bp : (s.setW l).bp = s.bp := rfl
@[simp] theorem State.setW_snapshot : (s.setW l).snapshot = s.snapshot := rfl
@[simp] theorem State.setW_z : (s.setW l).z = s.z := rfl
@[simp] theorem State.setW_fault : (s.setW l).fault = s.fault := rfl
@[simp] theorem State.setW_snapshotOnBnz : (s.setW l).snapshotOnBnz = s.snapshotOnBnz := rfl
@[simp] theorem State.setW_stage : (s.setW l).stage = s.stage := rfl
end

section
variable (s : State) (n : Int)
@[simp] theorem State.count_x : (s.count n).x = s.x := rfl
@[simp] theorem State.count_valid : (s.count n).valid = s.valid := rfl
@[simp] theorem State.count_fwd : (s.count n).fwd = s.fwd := rfl
@[simp] theorem State.count_pc : (s.count n).pc = s.pc := rfl
@[simp] theorem State.count_prog : (s.count n).prog = s.prog := rfl
@[simp] theorem State.count_dmem : (s.count n).dmem = s.dmem := rfl
@[simp] theorem State.count_F : (s.count n).F = s.F := rfl
@[simp] theorem State.count_D : (s.count n).D = s.D := rfl
@[simp] theorem State.count_E : (s.count n).E = s.E := rfl
@[simp] theorem State.count_M : (s.count n).M = s.M := rfl
@[simp] theorem State.count_W : (s.count n).W = s.W := rfl
@[simp] theorem State.count_clock : (s.count n).clock = s.clock := rfl
@[simp] theorem State.count_insCompleted : (s.count n).insCompleted = s.insCompleted + n := rfl
@[simp] theorem State.count_halted : (s.count n).halted = s.halted := rfl
@[simp] theorem State.count_bp : (s.count n).bp = s.bp := rfl
@[simp] theorem State.count_snapshot : (s.count n).snapshot = s.snapshot := rfl
@[simp] theorem State.count_z : (s.count n).z = s.z := rfl
@[simp] theorem State.count_fault : (s.count n).fault = s.fault := rfl
@[simp] theorem State.count_snapshotOnBnz : (s.count n).snapshotOnBnz = s.snapshotOnBnz := rfl
@[simp] theorem State.count_stage : (s.count n).stage = s.stage := rfl
end

section
variable (s : State)
@[simp] theorem State.setHalted_x : (s.setHalted).x = s.x := rfl
@[simp] theorem State.setHalted_valid : (s.setHalted).valid = s.valid := rfl
@[simp] theorem State.setHalted_fwd : (s.setHalted).fwd = s.fwd := rfl
@[simp] theorem State.setHalted_pc : (s.setHalted).pc = s.pc := rfl
@[simp] theorem State.setHalted_prog : (s.setHalted).prog = s.prog := rfl
@[simp] theorem State.setHalted_dmem : (s.setHalted).dmem = s.dmem := rfl
@[simp] theorem State.setHalted_F : (s.setHalted).F = s.F := rfl
@[simp] theorem State.setHalted_D : (s.setHalted).D = s.D := rfl
@[simp] theorem State.setHalted_E : (s.setHalted).E = s.E := rfl
@[simp] theorem State.setHalted_M : (s.setHalted).M = s.M := rfl
@[simp] theorem State.setHalted_W : (s.setHalted).W = s.W := rfl
@[simp] theorem State.setHalted_clock : (s.setHalted).clock = s.clock := rfl
@[simp] theorem State.setHalted_insCompleted : (s.setHalted).insCompleted = s.insCompleted := rfl
@[simp] theorem State.setHalted_halted : (s.setHalted).halted = true := rfl
@[simp] theorem State.setHalted_bp : (s.setHalted).bp = s.bp := rfl
@[simp] theorem State.setHalted_snapshot : (s.setHalted).snapshot = s.snapshot := rfl
@[simp] theorem State.setHalted_z : (s.setHalted).z = s.z := rfl
@[simp] theorem State.setHalted_fault : (s.setHalted).fault = s.fault := rfl
@[simp] theorem State.setHalted_snapshotOnBnz : (s.setHalted).snapshotOnBnz = s.snapshotOnBnz := rfl
@[simp] theorem State.setHalted_stage : (s.setHalted).stage = s.stage := rfl
end

section
variable (s : State) (b : BranchPending)
@[simp] theorem State.setBp_x : (s.setBp b).x = s.x := rfl
@[simp] theorem State.setBp_valid : (s.setBp b).valid = s.valid := rfl
@[simp] theorem State.setBp_fwd : (s.setBp b).fwd = s.fwd := rfl
@[simp] theorem State.setBp_pc : (s.setBp b).pc = s.pc := rfl
@[simp] theorem State.setBp_prog : (s.setBp b).prog = s.prog := rfl
@[simp] theorem State.setBp_dmem : (s.setBp b).dmem = s.dmem := rfl
@[simp] theorem State.setBp_F : (s.setBp b).F = s.F := rfl
@[simp] theorem State.setBp_D : (s.setBp b).D = s.D := rfl
@[simp] theorem State.setBp_E : (s.setBp b).E = s.E := rfl
@[simp] theorem State.setBp_M : (s.setBp b).M = s.M := rfl
@[simp] theorem State.setBp_W : (s.setBp b).W = s.W := rfl
@[simp] theorem State.setBp_clock : (s.setBp b).clock = s.clock := rfl
@[simp] theorem State.setBp_insCompleted : (s.setBp b).insCompleted = s.insCompleted := rfl
@[simp] theorem State.setBp_halted : (s.setBp b).halted = s.halted := rfl
@[simp] theorem State.setBp_bp : (s.setBp b).bp = b := rfl
@[simp] theorem State.setBp_snapshot : (s.setBp b).snapshot = s.snapshot := rfl
@[simp] theorem State.setBp_z : (s.setBp b).z = s.z := rfl
@[simp] theorem State.setBp_fault : (s.setBp b).fault = s.fault := rfl
@[simp] theorem State.setBp_snapshotOnBnz : (s.setBp b).snapshotOnBnz = s.snapshotOnBnz := rfl
@[simp] theorem State.setBp_stage : (s.setBp b).stage = s.stage := rfl
end

section
variable (s : State) (b : Bool)
@[simp] theorem State.setSnapshot_x : (s.setSnapshot b).x = s.x := rfl
@[simp] theorem State.setSnapshot_valid : (s.setSnapshot b).valid = s.valid := rfl
@[simp] theorem State.setSnapshot_fwd : (s.setSnapshot b).fwd = s.fwd := rfl
@[simp] theorem State.setSnapshot_pc : (s.setSnapshot b).pc = s.pc := rfl
@[simp] theorem State.setSnapshot_prog : (s.setSnapshot b).prog = s.prog := rfl
@[simp] theorem State.setSnapshot_dmem : (s.setSnapshot b).dmem = s.dmem := rfl
@[simp] theorem State.setSnapshot_F : (s.setSnapshot b).F = s.F := rfl
@[simp] theorem State.setSnapshot_D : (s.setSnapshot b).D = s.D := rfl
@[simp] theorem State.setSnapshot_E : (s.setSnapshot b).E = s.E := rfl
@[simp] theorem State.setSnapshot_M : (s.setSnapshot b).M = s.M := rfl
@[simp] theorem State.setSnapshot_W : (s.setSnapshot b).W = s.W := rfl
@[simp] theorem State.setSnapshot_clock : (s.setSnapshot b).clock = s.clock := rfl
@[simp] theorem State.setSnapshot_insCompleted : (s.setSnapshot b).insCompleted = s.insCompleted := rfl
@[simp] theorem State.setSnapshot_halted : (s.setSnapshot b).halted = s.halted := rfl
@[simp] theorem State.setSnapshot_bp : (s.setSnapshot b).bp = s.bp := rfl
@[simp] theorem State.setSnapshot_snapshot : (s.setSnapshot b).snapshot = b := rfl
@[simp] theorem State.setSnapshot_z : (s.setSnapshot b).z = s.z := rfl
@[simp] theorem State.setSnapshot_fault : (s.setSnapshot b).fault = s.fault := rfl
@[simp] theorem State.setSnapshot_snapshotOnBnz : (s.setSnapshot b).snapshotOnBnz = s.snapshotOnBnz := rfl
@[simp] theorem State.setSnapshot_stage : (s.setSnapshot b).stage = s.stage := rfl
end

section
variable (s : State) (b : Bool)
@[simp] theorem State.setZ_x : (s.setZ b).x = s.x := rfl
@[simp] theorem State.setZ_valid : (s.setZ b).valid = s.valid := rfl
@[simp] theorem State.setZ_fwd : (s.setZ b).fwd = s.fwd := rfl
@[simp] theorem State.setZ_pc : (s.setZ b).pc = s.pc := rfl
@[simp] theorem State.setZ_prog : (s.setZ b).prog = s.prog := rfl
@[simp] theorem State.setZ_dmem : (s.setZ b).dmem = s.dmem := rfl
@[simp] theorem State.setZ_F : (s.setZ b).F = s.F := rfl
@[simp] theorem State.setZ_D : (s.setZ b).D = s.D := rfl
@[simp] theorem State.setZ_E : (s.setZ b).E = s.E := rfl
@[simp] theorem State.setZ_M : (s.setZ b).M = s.M := rfl
@[simp] theorem State.setZ_W : (s.setZ b).W = s.W := rfl
@[simp] theorem State.setZ_clock : (s.setZ b).clock = s.clock := rfl
@[simp] theorem State.setZ_insCompleted : (s.setZ b).insCompleted = s.insCompleted := rfl
@[simp] theorem State.setZ_halted : (s.setZ b).halted = s.halted := rfl
@[simp] theorem State.setZ_bp : (s.setZ b).bp = s.bp := rfl
@[simp] theorem State.setZ_snapshot : (s.setZ b).snapshot = s.snapshot := rfl
@[simp] theorem State.setZ_z : (s.setZ b).z = b := rfl
@[simp] theorem State.setZ_fault : (s.setZ b).fault = s.fault := rfl
@[simp] theorem State.setZ_snapshotOnBnz : (s.setZ b).snapshotOnBnz = s.snapshotOnBnz := rfl
@[simp] theorem State.setZ_stage : (s.setZ b).stage = s.stage := rfl
end

section
variable (s : State) (f : FaultRecord)
@[simp] theorem State.setFault_x : (s.setFault f).x = s.x := rfl
@[simp] theorem State.setFault_valid : (s.setFault f).valid = s.valid := rfl
@[simp] theorem State.setFault_fwd : (s.setFault f).fwd = s.fwd := rfl
@[simp] theorem State.setFault_pc : (s.setFault f).pc = s.pc := rfl
@[simp] theorem State.setFault_prog : (s.setFault f).prog = s.prog := rfl
@[simp] theorem State.setFault_dmem : (s.setFault f).dmem = s.dmem := rfl
@[simp] theorem State.setFault_F : (s.setFault f).F = s.F := rfl
@[simp] theorem State.setFault_D : (s.setFault f).D = s.D := rfl
@[simp] theorem State.setFault_E : (s.setFault f).E = s.E := rfl
@[simp] theorem State.setFault_M : (s.setFault f).M = s.M := rfl
@[simp] theorem State.setFault_W : (s.setFault f).W = s.W := rfl
@[simp] theorem State.setFault_clock : (s.setFault f).clock = s.clock := rfl
@[simp] theorem State.setFault_insCompleted : (s.setFault f).insCompleted = s.insCompleted := rfl
@[simp] theorem State.setFault_halted : (s.setFault f).halted = s.halted := rfl
@[simp] theorem State.setFault_bp : (s.setFault f).bp = s.bp := rfl
@[simp] theorem State.setFault_snapshot : (s.setFault f).snapshot = s.snapshot := rfl
@[simp] theorem State.setFault_z : (s.setFault f).z = s.z := rfl
@[simp] theorem State.setFault_fault : (s.setFault f).fault = f := rfl
@[simp] theorem State.setFault_snapshotOnBnz : (s.setFault f).snapshotOnBnz = s.snapshotOnBnz := rfl
@[simp] theorem State.setFault_stage : (s.setFault f).stage = s.stage := rfl
end

section
variable (s : State)
@[simp] theorem State.endCycle_x : (s.endCycle).x = s.x := rfl
@[simp] theorem State.endCycle_valid : (s.endCycle).valid = s.valid := rfl
@[simp] theorem State.endCycle_fwd : (s.endCycle).fwd = s.fwd := rfl
@[simp] theorem State.endCycle_pc : (s.endCycle).pc = s.pc := rfl
@[simp] theorem State.endCycle_prog : (s.endCycle).prog = s.prog := rfl
@[simp] theorem State.endCycle_dmem : (s.endCycle).dmem = s.dmem := rfl
@[simp] theorem State.endCycle_F : (s.endCycle).F = s.F := rfl
@[simp] theorem State.endCycle_D : (s.endCycle).D = s.D := rfl
@[simp] theorem State.endCycle_E : (s.endCycle).E = s.E := rfl
@[simp] theorem State.endCycle_M : (s.endCycle).M = s.M := rfl
@[simp] theorem State.endCycle_W : (s.endCycle).W = s.W := rfl
@[simp] theorem State.endCycle_clock : (s.endCycle).clock = s.clock + 1 := rfl
@[simp] theorem State.endCycle_insCompleted : (s.endCycle).insCompleted = s.insCompleted := rfl
@[simp] theorem State.endCycle_halted : (s.endCycle).halted = s.halted := rfl
@[simp] theorem State.endCycle_bp : (s.endCycle).bp = s.bp := rfl
@[simp] theorem State.endCycle_snapshot : (s.endCycle).snapshot = s.snapshot := rfl
@[simp] theorem State.endCycle_z : (s.endCycle).z = s.z := rfl
@[simp] theorem State.endCycle_fault : (s.endCycle).fault = s.fault := rfl
@[simp] theorem State.endCycle_snapshotOnBnz : (s.endCycle).snapshotOnBnz = s.snapshotOnBnz := rfl
@[simp] theorem State.endCycle_stage : (s.endCycle).stage = .writeback := rfl
end

section
variable (s : State) (b : Bool)
@[simp] theorem State.stallD_x : (s.stallD b).x = s.x := rfl
@[simp] theorem State.stallD_valid : (s.stallD b).valid = s.valid := rfl
@[simp] theorem State.stallD_fwd : (s.stallD b).fwd = s.fwd := rfl
@[simp] theorem State.stallD_pc : (s.stallD b).pc = s.pc := rfl
@[simp] theorem State.stallD_prog : (s.stallD b).prog = s.prog := rfl
@[simp] theorem State.stallD_dmem : (s.stallD b).dmem = s.dmem := rfl
@[simp] theorem State.stallD_F : (s.stallD b).F = s.F := rfl
@[simp] theorem State.stallD_D : (s.stallD b).D = { s.D with stalled := b } := rfl
@[simp] theorem State.stallD_E : (s.stallD b).E = s.E := rfl
@[simp] theorem State.stallD_M : (s.stallD b).M = s.M := rfl
@[simp] theorem State.stallD_W : (s.stallD b).W = s.W := rfl
@[simp] theorem State.stallD_clock : (s.stallD b).clock = s.clock := rfl
@[simp] theorem State.stallD_insCompleted : (s.stallD b).insCompleted = s.insCompleted := rfl
@[simp] theorem State.stallD_halted : (s.stallD b).halted = s.halted := rfl
@[simp] theorem State.stallD_bp : (s.stallD b).bp = s.bp := rfl
@[simp] theorem State.stallD_snapshot : (s.stallD b).snapshot = s.snapshot := rfl
@[simp] theorem State.stallD_z : (s.stallD b).z = s.z := rfl
@[simp] theorem State.stallD_fault : (s.stallD b).fault = s.fault := rfl
@[simp] theorem State.stallD_snapshotOnBnz : (s.stallD b).snapshotOnBnz = s.snapshotOnBnz := rfl
@[simp] theorem State.stallD_stage : (s.stallD b).stage = s.stage := rfl
end

section
variable (s : State) (b : Bool)
@[simp] theorem State.stallF_x : (s.stallF b).x = s.x := rfl
@[simp] theorem State.stallF_valid : (s.stallF b).valid = s.valid := rfl
@[simp] theorem State.stallF_fwd : (s.stallF b).fwd = s.fwd := rfl
@[simp] theorem State.stallF_pc : (s.stallF b).pc = s.pc := rfl
@[simp] theorem State.stallF_prog : (s.stallF b).prog = s.prog := rfl
@[simp] theorem State.stallF_dmem : (s.stallF b).dmem = s.dmem := rfl
@[simp] theorem State.stallF_F : (s.stallF b).F = { s.F with stalled := b } := rfl
@[simp] theorem State.stallF_D : (s.stallF b).D = s.D := rfl
@[simp] theorem State.stallF_E : (s.stallF b).E = s.E := rfl
@[simp] theorem State.stallF_M : (s.stallF b).M = s.M := rfl
@[simp] theorem State.stallF_W : (s.stallF b).W = s.W := rfl
@[simp] theorem State.stallF_clock : (s.stallF b).clock = s.clock := rfl
@[simp] theorem State.stallF_insCompleted : (s.stallF b).insCompleted = s.insCompleted := rfl
@[simp] theorem State.stallF_halted : (s.stallF b).halted = s.halted := rfl
@[simp] theorem State.stallF_bp : (s.stallF b).bp = s.bp := rfl
@[simp] theorem State.stallF_snapshot : (s.stallF b).snapshot = s.snapshot := rfl
@[simp] theorem State.stallF_z : (s.stallF b).z = s.z := rfl
@[simp] theorem State.stallF_fault : (s.stallF b).fault = s.fault := rfl
@[simp] theorem State.stallF_snapshotOnBnz : (s.stallF b).snapshotOnBnz = s.snapshotOnBnz := rfl
@[simp] theorem State.stallF_stage : (s.stallF b).stage = s.stage := rfl
end

end Sys2Proof.Machine
end

