-- ==== Sys2Proof/Laws/Exec.lean ====
section
/-! SUPPORT. What `exec` does in each stage, said once: it always answers a next state, and in each stage the sixteen
meanings are instances of a few shared operations. -/

namespace Sys2Proof.Machine

open Sys2Proof.Safety

@[simp] theorem andThen_next (s : State) (k : State → Host.Outcome State Fault Refusal) :
    andThen (.next s) k = k s := rfl

/-- Chaining goes on from a next state only. -/
theorem andThen_eq_next {o : Host.Outcome State Fault Refusal} {k : State → Host.Outcome State Fault Refusal}
    {t : State} (h : andThen o k = .next t) : ∃ s, o = .next s ∧ k s = .next t := by
  cases o with
  | next s => exact ⟨s, rfl, h⟩
  | fault r => cases h
  | refused r => cases h

/-- No instruction stops the core in any stage. -/
theorem exec_next (i : Instr) (s : State) : ∃ t, exec i s = .next t := by
  cases i <;>
    simp only [exec, execMovc, execAdd, execAddi, execSub, execMul, execAnd, execOr, execXor, execLoad, execLdr,
      execStore, execHalt, execJump, execBz, execBnz, execNop] <;>
    split <;> exact ⟨_, rfl⟩

/-- The opcode's own action in Decode (40_pipeline.md R186). -/
def decodeAction : Instr → State → State
  | .halt => rewriteAfterHalt
  | .bz _ => armAfterRefresh
  | .bnz _ => armWithParameter
  | _ => id

/-- The opcode's own part of Execute (40_pipeline.md R203), before or with the copy into `M`. -/
def executeAction : Instr → State → State
  | .movc rd imm, s => executeResult rd imm s
  | .add rd _ _, s => executeResultZ rd (s.E.rs1Value + s.E.rs2Value) s
  | .addi rd _ imm, s => executeResultZ rd (s.E.rs1Value + imm) s
  | .sub rd _ _, s => executeResultZ rd (s.E.rs1Value - s.E.rs2Value) s
  | .mul rd _ _, s => if s.E.busy then executeMulSecond rd (s.E.rs1Value * s.E.rs2Value) s else executeMulFirst s
  | .and rd _ _, s => executeResult rd (s.E.rs1Value &&& s.E.rs2Value) s
  | .or rd _ _, s => executeResult rd (s.E.rs1Value ||| s.E.rs2Value) s
  | .xor rd _ _, s => executeResult rd (s.E.rs1Value ^^^ s.E.rs2Value) s
  | .load rd _ imm, s => executeLoad rd (s.E.rs1Value + imm) s
  | .ldr rd _ _, s => executeLdr rd (s.E.rs1Value + s.E.rs2Value) s
  | .store _ _ imm, s => executeStore (s.E.rs2Value + imm) s
  | .halt, s => leaveExecute s
  | .jump _ imm, s => executeJump (s.E.rs1Value + imm) s
  | .bz imm, s => executeBranch s.snapshot (s.E.pc + imm) s
  | .bnz imm, s => executeBranch (!s.snapshot) (s.E.pc + imm) s
  | .nop, s => leaveExecute s

/-- The opcode's own part of Memory (40_pipeline.md R212), with the copy into `W`. -/
def memoryAction (i : Instr) (s : State) : State :=
  match i with
  | .movc _ _ => passMemory id s
  | .add _ _ _ => passMemory id s
  | .addi _ _ _ => passMemory id s
  | .sub _ _ _ => passMemory id s
  | .mul _ _ _ => passMemory id s
  | .and _ _ _ => passMemory id s
  | .or _ _ _ => passMemory id s
  | .xor _ _ _ => passMemory id s
  | .load rd _ _ => accessMemory .dataLoad (memoryLoad rd) s
  | .ldr _ _ _ => accessMemory .dataLoad memoryLdr s
  | .store _ _ _ => accessMemory .dataStore memoryStore s
  | .halt => passMemory id s
  | .jump _ _ => passMemory releaseJump s
  | .bz _ => passMemory id s
  | .bnz _ => passMemory id s
  | .nop => leaveMemory s

/-- The opcode's own part of Writeback (40_pipeline.md R221 to R224). -/
def writebackAction (i : Instr) (s : State) : State :=
  match destination i with
  | some rd => retireWriter rd s
  | none =>
    match i with
    | .halt => retire s.setHalted
    | .nop => bubbleWriteback s
    | _ => retire s

theorem exec_at_fetch (i : Instr) {s : State} (h : s.stage = .fetch) : exec i s = .next (advanceFetch s) := by
  cases i <;>
    simp [exec, execMovc, execAdd, execAddi, execSub, execMul, execAnd, execOr, execXor, execLoad, execLdr, execStore,
      execHalt, execJump, execBz, execBnz, execNop, h]

theorem exec_at_decode {i : Instr} {s : State} (h : s.stage = .decode) (hi : i ≠ .nop) :
    exec i s = .next (decodeWith (sourceRs1 i) (sourceRs2 i) (decodeAction i) s) := by
  cases i with
  | nop => exact absurd rfl hi
  | _ =>
    simp [exec, execMovc, execAdd, execAddi, execSub, execMul, execAnd, execOr, execXor, execLoad, execLdr,
      execStore, execHalt, execJump, execBz, execBnz, sourceRs1, sourceRs2, decodeAction, h]

theorem exec_at_execute (i : Instr) {s : State} (h : s.stage = .execute) :
    exec i s = .next (executeAction i s) := by
  cases i <;>
    simp [exec, execMovc, execAdd, execAddi, execSub, execMul, execAnd, execOr, execXor, execLoad, execLdr,
      execStore, execHalt, execJump, execBz, execBnz, execNop, executeAction, plusImm, plusIndex, takenIfZero,
      takenIfNonzero, h]

theorem exec_at_memory (i : Instr) {s : State} (h : s.stage = .memory) : exec i s = .next (memoryAction i s) := by
  cases i <;>
    simp [exec, execMovc, execAdd, execAddi, execSub, execMul, execAnd, execOr, execXor, execLoad, execLdr,
      execStore, execHalt, execJump, execBz, execBnz, execNop, memoryAction, h]

theorem exec_at_writeback (i : Instr) {s : State} (h : s.stage = .writeback) :
    exec i s = .next (writebackAction i s) := by
  cases i <;>
    simp [exec, execMovc, execAdd, execAddi, execSub, execMul, execAnd, execOr, execXor, execLoad, execLdr,
      execStore, execHalt, execJump, execBz, execBnz, execNop, writebackAction, destination, h]

end Sys2Proof.Machine
end

