-- ==== Sys2Proof/Laws/PerInstr.lean ====
section
/-! SUPPORT. What is said of every instruction as syntax: the opcode field of its encoding (30_encoding.md R132). -/

namespace Sys2Proof.Laws.OpcodeField

/-- The code of the instruction's row in the table of R132. -/
def code : Instr → BitVec 4
  | .movc _ _ => 0
  | .add _ _ _ => 1
  | .addi _ _ _ => 2
  | .sub _ _ _ => 3
  | .mul _ _ _ => 4
  | .and _ _ _ => 5
  | .or _ _ _ => 6
  | .xor _ _ _ => 7
  | .load _ _ _ => 8
  | .ldr _ _ _ => 9
  | .store _ _ _ => 10
  | .halt => 11
  | .jump _ _ => 12
  | .bz _ => 13
  | .bnz _ => 14
  | .nop => 15

/-- Bits 47 to 44 of the encoding hold the row's code, whatever the operands are. -/
def Statement (i : Instr) : Prop := (encode i).extractLsb' 44 4 = code i

/-- The top four bits of a record built from fields are the operation's code. -/
theorem of_fields (op : Opcode) (rd rs1 rs2 : RegId) (imm : Word) :
    (recordOfFields op rd rs1 rs2 imm).extractLsb' 44 4 = codeOfOpcode op := by
  unfold recordOfFields
  ext i hi
  simp only [BitVec.getElem_extractLsb', BitVec.getLsbD_append]
  have h0 : ¬44 + i < 32 := by omega
  have h1 : ¬44 + i - 32 < 4 := by omega
  have h2 : ¬44 + i - 32 - 4 < 4 := by omega
  have h3 : ¬44 + i - 32 - 4 - 4 < 4 := by omega
  have h4 : 44 + i - 32 - 4 - 4 - 4 = i := by omega
  simp only [h0, h1, h2, h3, h4, if_false, BitVec.getLsbD_eq_getElem hi]

theorem movc (rd : RegId) (imm : Word) : Statement (.movc rd imm) := of_fields ..

theorem add (rd rs1 rs2 : RegId) : Statement (.add rd rs1 rs2) := of_fields ..

theorem addi (rd rs1 : RegId) (imm : Word) : Statement (.addi rd rs1 imm) := of_fields ..

theorem sub (rd rs1 rs2 : RegId) : Statement (.sub rd rs1 rs2) := of_fields ..

theorem mul (rd rs1 rs2 : RegId) : Statement (.mul rd rs1 rs2) := of_fields ..

theorem and (rd rs1 rs2 : RegId) : Statement (.and rd rs1 rs2) := of_fields ..

theorem or (rd rs1 rs2 : RegId) : Statement (.or rd rs1 rs2) := of_fields ..

theorem xor (rd rs1 rs2 : RegId) : Statement (.xor rd rs1 rs2) := of_fields ..

theorem load (rd rs1 : RegId) (imm : Word) : Statement (.load rd rs1 imm) := of_fields ..

theorem ldr (rd rs1 rs2 : RegId) : Statement (.ldr rd rs1 rs2) := of_fields ..

theorem store (rs1 rs2 : RegId) (imm : Word) : Statement (.store rs1 rs2 imm) := of_fields ..

theorem halt : Statement .halt := of_fields ..

theorem jump (rs1 : RegId) (imm : Word) : Statement (.jump rs1 imm) := of_fields ..

theorem bz (imm : Word) : Statement (.bz imm) := of_fields ..

theorem bnz (imm : Word) : Statement (.bnz imm) := of_fields ..

theorem nop : Statement .nop := of_fields ..

end Sys2Proof.Laws.OpcodeField
end

