-- ==== Sys2Proof/Laws/Stages.lean ====
section
/-! SUPPORT. One specification a stage procedure: if it answers `t` from `s`, this is everything `t` can be. Proofs
about a cycle cite these and do not unfold the procedures. -/

namespace Sys2Proof.Machine

open Sys2Proof.Safety

/-- The instruction of a latch is NOP exactly when its operation is. -/
theorem Latch.instr_ne_nop {l : Latch} (h : l.op ≠ .nop) : l.instr ≠ .nop := by
  unfold Latch.instr instrOfFields
  cases hl : l.op <;> simp_all

theorem Latch.live_iff (l : Latch) : l.live = true ↔ l.busy = false ∧ l.stalled = false ∧ l.op ≠ .nop := by
  simp [Latch.live, and_assoc]

theorem Latch.mulPending_iff (l : Latch) :
    l.mulPending = true ↔ l.op = .mul ∧ l.busy = true ∧ l.stalled = false := by
  simp [Latch.mulPending, and_assoc]

/-- The destination of a latch's instruction is its `rd` exactly when its operation is a destination writer. -/
theorem Latch.destination_instr (l : Latch) :
    destination l.instr = if writesRegister l.op then some l.rd else none := by
  unfold Latch.instr instrOfFields
  cases l.op <;> rfl

theorem Latch.writes_iff (l : Latch) (r : RegId) :
    l.writes r = true ↔ l.live = true ∧ writesRegister l.op = true ∧ l.rd = r := by
  simp [Latch.writes, and_assoc]

/-! ## Writeback -/

/-- Everything Writeback can do (40_pipeline.md R220 to R225). -/
structure WritebackSpec (s t : State) : Prop where
  x : ∀ r : RegId, t.x[r] = if s.W.writes r = true then s.W.result else s.x[r]
  valid : ∀ r : RegId, t.valid[r] = (s.valid[r] && (!s.W.writes r || s.M.writes r))
  insCompleted : t.insCompleted = s.insCompleted + if s.W.live = true then 1 else 0
  halted : t.halted = (s.halted || (s.W.live && decide (s.W.op = .halt)))
  release : s.W.live = false ∧ s.bp = .resolved ∧ t.D = { s.D with stalled := false } ∧ t.bp = .none ∨
    (s.W.live = true ∨ s.bp ≠ .resolved) ∧ t.D = s.D ∧ t.bp = s.bp
  fwd : t.fwd = s.fwd
  pc : t.pc = s.pc
  prog : t.prog = s.prog
  dmem : t.dmem = s.dmem
  F : t.F = s.F
  E : t.E = s.E
  M : t.M = s.M
  W : t.W = s.W
  clock : t.clock = s.clock
  snapshot : t.snapshot = s.snapshot
  z : t.z = s.z
  fault : t.fault = s.fault
  snapshotOnBnz : t.snapshotOnBnz = s.snapshotOnBnz

theorem retireWriter_spec (rd : RegId) (s : State) (hl : s.W.live = true) (hw : writesRegister s.W.op = true)
    (hr : s.W.rd = rd) (hh : s.W.op ≠ .halt) : WritebackSpec s (retireWriter rd s) := by
  have hwr : ∀ r, s.W.writes r = decide (rd = r) := fun r => by simp [Latch.writes, hl, hw, hr]
  refine ⟨fun r => ?_, fun r => ?_, ?_, ?_, .inr ⟨.inl hl, ?_, ?_⟩, ?_, ?_, ?_, ?_, ?_, ?_, ?_, ?_, ?_, ?_, ?_, ?_, ?_⟩
  all_goals
    unfold retireWriter retire
    split <;> rename_i hm
  all_goals simp [hl, hh]
  · rw [hwr]; by_cases h : rd = r
    · subst h; simp
    · simp [h, Fin.val_inj]
  · rw [hwr]; by_cases h : rd = r
    · subst h; simp
    · simp [h, Fin.val_inj]
  · rw [hwr]; by_cases h : rd = r
    · subst h; simp [hm]
    · simp [h]
  · rw [hwr]; by_cases h : rd = r
    · subst h; simp [hm]
    · simp [h, Fin.val_inj]

theorem writebackStage_spec {s t : State} (h : writebackStage s = .next t) : WritebackSpec s t := by
  unfold writebackStage at h
  by_cases hl : s.W.live = true
  · simp only [State.atStage_W, hl, if_true] at h
    rw [exec_at_writeback _ (by simp)] at h
    obtain rfl := Host.Outcome.next.inj h
    have hw := s.W.destination_instr
    cases hop : writesRegister s.W.op
    · have hr : ∀ r, s.W.writes r = false := fun r => by simp [Latch.writes, hop]
      rw [hop] at hw
      have hn : s.W.op ≠ .nop := ((Latch.live_iff _).mp hl).2.2
      cases ho : s.W.op <;> simp [ho, writesRegister] at hop hn <;>
        constructor <;>
        simp [writebackAction, destination, Latch.instr, instrOfFields, ho, retire, hl, hr]
    · have hn : s.W.op ≠ .halt := by intro hh; simp [hh, writesRegister] at hop
      rw [hop] at hw
      have := retireWriter_spec s.W.rd (s.atStage .writeback) hl hop rfl hn
      simp only [writebackAction, hw, if_true]
      exact ⟨this.x, this.valid, this.insCompleted, this.halted, this.release, this.fwd, this.pc, this.prog, this.dmem,
        this.F, this.E, this.M, this.W, this.clock, this.snapshot, this.z, this.fault, this.snapshotOnBnz⟩
  · have hl : s.W.live = false := by simpa using hl
    have hr : ∀ r, s.W.writes r = false := fun r => by simp [Latch.writes, hl]
    simp only [State.atStage_W, hl] at h
    obtain rfl := Host.Outcome.next.inj h
    unfold bubbleWriteback
    split <;> rename_i hb <;> simp only [State.atStage_bp] at hb <;> constructor <;> simp [hl, hr, hb]

/-! ## Memory -/

/-- Everything Memory can do (40_pipeline.md R210 to R214): it raises the fault and writes nothing else, or it copies
`M` into `W` after the action of `M`'s operation. -/
structure MemorySpec (s t : State) : Prop where
  raised : raisesFault s →
    t.fault =
        { valid := true
          kind := if s.M.fault = true then .controlTarget else if s.M.op = .store then .dataStore else .dataLoad
          pc := s.M.pc
          addr := if s.M.fault = true then s.M.result else s.M.memAddress } ∧
      t.fwd = s.fwd ∧ t.dmem = s.dmem ∧ t.F = s.F ∧ t.D = s.D ∧ t.M = s.M ∧ t.W = s.W
  passed : ¬raisesFault s →
    t.fault = s.fault ∧ t.W = t.M ∧
      t.M = (if s.M.live = true ∧ (s.M.op = .load ∨ s.M.op = .ldr) then { s.M with result := loadedWord s } else s.M) ∧
      t.fwd = (if s.M.live = true ∧ s.M.op = .load then s.fwd.set s.M.rd (loadedWord s) else s.fwd) ∧
      t.dmem = (if s.M.live = true ∧ s.M.op = .store then
          Memory.write s.dmem s.M.memAddress.toNat s.M.rs1Value else s.dmem) ∧
      t.F = (if s.M.live = true ∧ s.M.op = .jump then { s.F with stalled := false } else s.F) ∧
      t.D = (if s.M.live = true ∧ (s.M.op = .load ∨ s.M.op = .jump) then { s.D with stalled := false } else s.D)
  x : t.x = s.x
  valid : t.valid = s.valid
  pc : t.pc = s.pc
  prog : t.prog = s.prog
  E : t.E = s.E
  clock : t.clock = s.clock
  insCompleted : t.insCompleted = s.insCompleted
  halted : t.halted = s.halted
  bp : t.bp = s.bp
  snapshot : t.snapshot = s.snapshot
  z : t.z = s.z
  snapshotOnBnz : t.snapshotOnBnz = s.snapshotOnBnz

theorem inRange_iff (a : Word) : inRange a = true ↔ a.toNat < Config.dmemWords := by simp [inRange]

theorem memoryStage_spec {s t : State} (h : memoryStage s = .next t) : MemorySpec s t := by
  unfold memoryStage at h
  by_cases hl : s.M.live = true
  · simp only [State.atStage_M, hl, if_true] at h
    rw [exec_at_memory _ (by simp)] at h
    obtain rfl := Host.Outcome.next.inj h
    have hn : s.M.op ≠ .nop := ((Latch.live_iff _).mp hl).2.2
    have hr : ∀ a : Word, inRange a = decide (a.toNat < Config.dmemWords) := fun a => rfl
    cases ho : s.M.op <;> simp only [ho, ne_eq, not_true] at hn <;>
      simp only [Latch.instr, instrOfFields, ho, memoryAction, accessMemory, passMemory, hr, State.atStage_M] <;>
      rcases Bool.eq_false_or_eq_true s.M.fault with hf | hf <;> simp only [hf] <;>
      first
        | (constructor <;> simp [raisesFault, hl, ho, hf, leaveMemory, raise, releaseJump, memoryLoad]; done)
        | (rcases Nat.lt_or_ge s.M.memAddress.toNat Config.dmemWords with ha | ha <;> constructor <;>
            simp [raisesFault, hl, ho, hf, ha, Nat.not_lt.mpr, Nat.not_le.mpr, leaveMemory, raise, memoryLoad, memoryLdr,
              memoryStore, loadedWord])
  · simp only [State.atStage_M, hl] at h
    obtain rfl := Host.Outcome.next.inj h
    constructor <;> simp [raisesFault, hl, leaveMemory]

/-! ## Execute -/

theorem validTarget_iff (n : Nat) (t : Word) : validTarget n t = true ↔ targetAccepted n t := by
  rw [validTarget, Bool.and_eq_true, aligned, decide_eq_true_iff, decide_eq_true_iff]
  rfl

/-- A latch holds a conditional branch. -/
def Latch.isBranch (l : Latch) : Bool := decide (l.op = .bz) || decide (l.op = .bnz)

/-- The target of the control transfer a latch holds, and whether it is taken (43_control.md R305, R310, R313). -/
def transferTarget (s : State) : Word := if s.E.op = .jump then s.E.rs1Value + s.E.imm else s.E.pc + s.E.imm

/-- A live control transfer in `E` that is taken. -/
def transfers (s : State) : Bool :=
  s.E.live && (decide (s.E.op = .jump) || decide (s.E.op = .bz) && s.snapshot || decide (s.E.op = .bnz) && !s.snapshot)

theorem redirectsTo_iff (s : State) (a : Word) :
    redirectsTo s a ↔
      transfers s = true ∧ validTarget s.prog.length (transferTarget s) = true ∧ a = transferTarget s := by
  rw [validTarget_iff]
  unfold redirectsTo transfers transferTarget
  cases ho : s.E.op <;> simp only [Bool.and_eq_true, Bool.or_eq_true] <;> simp <;>
    first
      | (intro _ h; rw [h])
      | (constructor
         · rintro ⟨h1, h2, h3, h4⟩
           exact ⟨⟨h1, h4⟩, h3 ▸ h2, h3⟩
         · rintro ⟨⟨h1, h2⟩, h3, h4⟩
           exact ⟨h1, h4 ▸ h3, h4, h2⟩)

/-- Everything Execute can do (40_pipeline.md R200 to R205, 43_control.md R302 to R313). -/
structure ExecuteSpec (s t : State) : Prop where
  M : t.M = t.E
  op : t.E.op = s.E.op
  rd : t.E.rd = s.E.rd
  rs1 : t.E.rs1 = s.E.rs1
  rs2 : t.E.rs2 = s.E.rs2
  imm : t.E.imm = s.E.imm
  opPc : t.E.pc = s.E.pc
  rs1Value : t.E.rs1Value = s.E.rs1Value
  rs2Value : t.E.rs2Value = s.E.rs2Value
  stalled : t.E.stalled = s.E.stalled
  busy : t.E.busy = if s.E.op = .mul ∧ s.E.stalled = false then !s.E.busy else s.E.busy
  deferred : t.E.fault = (s.E.fault || transfers s && !validTarget s.prog.length (transferTarget s))
  valid : ∀ r : RegId, t.valid[r] = (s.valid[r] || t.M.writes r)
  fwd : t.fwd = if t.M.live = true ∧ writesRegister t.M.op = true ∧ t.M.op ≠ .load then s.fwd.set t.M.rd t.M.result
    else s.fwd
  address : s.E.live = true →
    (s.E.op = .load → t.E.memAddress = s.E.rs1Value + s.E.imm) ∧
      (s.E.op = .store → t.E.memAddress = s.E.rs2Value + s.E.imm) ∧
      (s.E.op = .ldr → t.E.memAddress = s.E.rs1Value + s.E.rs2Value)
  result : s.E.live = true ∨ s.E.mulPending = true →
    (s.E.op = .movc → t.E.result = s.E.imm) ∧ (s.E.op = .add → t.E.result = s.E.rs1Value + s.E.rs2Value) ∧
      (s.E.op = .addi → t.E.result = s.E.rs1Value + s.E.imm) ∧
      (s.E.op = .sub → t.E.result = s.E.rs1Value - s.E.rs2Value) ∧
      (s.E.op = .mul → s.E.busy = true → t.E.result = s.E.rs1Value * s.E.rs2Value) ∧
      (s.E.op = .and → t.E.result = s.E.rs1Value &&& s.E.rs2Value) ∧
      (s.E.op = .or → t.E.result = s.E.rs1Value ||| s.E.rs2Value) ∧
      (s.E.op = .xor → t.E.result = s.E.rs1Value ^^^ s.E.rs2Value) ∧
      (s.E.op = .ldr → t.E.result = s.E.rs1Value + s.E.rs2Value)
  redirected : transfers s = true → validTarget s.prog.length (transferTarget s) = true →
    t.pc = transferTarget s ∧ t.F = { Latch.cleared with stalled := decide (s.E.op = .jump) } ∧
      t.D = { Latch.cleared with stalled := true } ∧
      t.insCompleted = s.insCompleted + correction (transferTarget s) s.E.pc ∧
      t.bp = if s.E.op = .jump then s.bp else .resolved
  straight : transfers s = false ∨ validTarget s.prog.length (transferTarget s) = false →
    t.pc = s.pc ∧ t.F = s.F ∧ t.D = (if s.E.mulPending = true then { s.D with stalled := false } else s.D) ∧
      t.insCompleted = s.insCompleted ∧ t.bp = if s.E.live = true ∧ s.E.isBranch = true then .none else s.bp
  idle : s.E.live = false → s.E.mulPending = false → t.E = s.E
  x : t.x = s.x
  prog : t.prog = s.prog
  dmem : t.dmem = s.dmem
  W : t.W = s.W
  clock : t.clock = s.clock
  halted : t.halted = s.halted
  snapshot : t.snapshot = s.snapshot
  fault : t.fault = s.fault
  snapshotOnBnz : t.snapshotOnBnz = s.snapshotOnBnz

theorem executeStage_spec {s t : State} (h : executeStage s = .next t) : ExecuteSpec s t := by
  unfold executeStage at h
  rcases Bool.eq_false_or_eq_true s.E.mulPending with hm | hm
  · obtain ⟨ho, hb, hs⟩ := (Latch.mulPending_iff _).mp hm
    have hl : s.E.live = false := by simp [Latch.live, hb]
    simp only [State.atStage_E, hm, Bool.true_or, if_true] at h
    rw [exec_at_execute _ (by simp)] at h
    obtain rfl := Host.Outcome.next.inj h
    simp only [Latch.instr, instrOfFields, ho, executeAction, State.atStage_E, hb, if_true]
    constructor <;>
      simp [executeMulSecond, publish, setZero, leaveExecute, transfers, hm, ho, hs, hb, Latch.writes, Latch.live,
        Latch.isBranch, writesRegister]
    intro r
    by_cases hr : s.E.rd = r
    · subst hr; simp
    · simp [hr, Fin.val_inj]
  rcases Bool.eq_false_or_eq_true s.E.live with hl | hl
  · obtain ⟨hb, hs, hn⟩ := (Latch.live_iff _).mp hl
    simp only [State.atStage_E, hl, Bool.or_true, if_true] at h
    rw [exec_at_execute _ (by simp)] at h
    obtain rfl := Host.Outcome.next.inj h
    cases ho : s.E.op <;> simp only [ho, ne_eq, not_true] at hn <;>
      simp only [Latch.instr, instrOfFields, ho, executeAction, State.atStage_E, hb, if_false, Bool.false_eq_true]
    case jump =>
      rcases Bool.eq_false_or_eq_true (validTarget s.prog.length (s.E.rs1Value + s.E.imm)) with hv | hv <;>
        constructor <;>
        simp [executeJump, setTarget, redirect, deferFault, leaveExecute, transfers, transferTarget, hm, ho, hs, hb, hv,
          Latch.writes, Latch.live, Latch.isBranch, writesRegister]
    case bz =>
      rcases Bool.eq_false_or_eq_true (validTarget s.prog.length (s.E.pc + s.E.imm)) with hv | hv <;>
        rcases Bool.eq_false_or_eq_true s.snapshot with ht | ht <;> constructor <;>
        simp [executeBranch, setTarget, redirect, deferFault, leaveExecute, transfers, transferTarget, hm, ho, hs, hb, hv,
          ht, Latch.writes, Latch.live, Latch.isBranch, writesRegister]
    case bnz =>
      rcases Bool.eq_false_or_eq_true (validTarget s.prog.length (s.E.pc + s.E.imm)) with hv | hv <;>
        rcases Bool.eq_false_or_eq_true s.snapshot with ht | ht <;> constructor <;>
        simp [executeBranch, setTarget, redirect, deferFault, leaveExecute, transfers, transferTarget, hm, ho, hs, hb, hv,
          ht, Latch.writes, Latch.live, Latch.isBranch, writesRegister]
    case store | halt =>
      constructor <;>
        simp [executeStore, setAddress, leaveExecute, transfers, hm, ho, hs, hb, Latch.writes, Latch.live,
          Latch.isBranch, writesRegister]
    all_goals
      constructor <;>
        simp [executeResult, executeResultZ, executeMulFirst, executeLoad, executeLdr, setAddress, publish,
          setZero, leaveExecute, transfers, hm, ho, hs, hb, Latch.writes, Latch.live, Latch.isBranch,
          writesRegister]
    all_goals
      intro r
      by_cases hr : s.E.rd = r
      · subst hr; simp
      · simp [hr, Fin.val_inj]
  · simp only [State.atStage_E, hl, hm] at h
    obtain rfl := Host.Outcome.next.inj h
    have hb : s.E.op = .mul → s.E.stalled = false → False := by
      intro h1 h2
      rcases Bool.eq_false_or_eq_true s.E.busy with h3 | h3 <;> simp [Latch.mulPending, Latch.live, h1, h2, h3] at hl hm
    constructor <;> simp [leaveExecute, transfers, hl, hm, Latch.writes, Latch.isBranch]
    exact fun h1 => by_contra fun h2 => hb h1 (by simpa using h2)

/-! ## Decode -/

theorem loadUseOf_iff (s : State) (o : Option RegId) : loadUseOf s o = true ↔ ∃ r, o = some r ∧ pendingLoad s r := by
  cases o <;> simp [loadUseOf, loadUse, pendingLoad, and_assoc]

theorem hazard_iff (s : State) (i : Instr) :
    (loadUseOf s (sourceRs1 i) || loadUseOf s (sourceRs2 i)) = true ↔ loadUseHazard s i := by
  rw [Bool.or_eq_true, loadUseOf_iff, loadUseOf_iff, loadUseHazard, ← exists_or]
  exact exists_congr fun r => or_and_right.symm

theorem operandOrZero_eq (s : State) (o : Option RegId) : operandOrZero s o = materialized s o := by
  cases o <;> rfl

/-- Everything Decode can do (40_pipeline.md R180 to R192): hold behind a MUL, copy a bubble, stall on a load-use
hazard, or read the operands, act and pass the occupant on. -/
structure DecodeSpec (s t : State) : Prop where
  holds : s.E.mulPending = true → t = { s with D := { s.D with stalled := true }, stage := .decode }
  bubble : s.E.mulPending = false → s.D.live = false → t = { s with E := s.D, stage := .decode }
  hazard : s.E.mulPending = false → s.D.live = true → loadUseHazard s s.D.instr →
    t = { s with D := { s.D with stalled := true }, E := { s.D with stalled := true }, stage := .decode }
  passes : s.E.mulPending = false → s.D.live = true → ¬loadUseHazard s s.D.instr →
    t.D = { s.D with
        rs1Value := materialized s (sourceRs1 s.D.instr), rs2Value := materialized s (sourceRs2 s.D.instr) } ∧
      t.E = t.D ∧ t.prog = (if s.D.op = .halt then rewriteAfter s.prog (idx s.D.pc) else s.prog) ∧
      t.bp = (if s.D.isBranch = true then .armed else s.bp) ∧
      t.snapshot = (if s.D.op = .bz ∨ s.D.op = .bnz ∧ s.snapshotOnBnz = true then s.z else s.snapshot)
  x : t.x = s.x
  valid : t.valid = s.valid
  fwd : t.fwd = s.fwd
  pc : t.pc = s.pc
  dmem : t.dmem = s.dmem
  F : t.F = s.F
  M : t.M = s.M
  W : t.W = s.W
  clock : t.clock = s.clock
  insCompleted : t.insCompleted = s.insCompleted
  halted : t.halted = s.halted
  z : t.z = s.z
  fault : t.fault = s.fault
  snapshotOnBnz : t.snapshotOnBnz = s.snapshotOnBnz

theorem decodeStage_spec {s t : State} (h : decodeStage s = .next t) : DecodeSpec s t := by
  unfold decodeStage at h
  rcases Bool.eq_false_or_eq_true s.E.mulPending with hm | hm
  · simp only [State.atStage_E, hm, if_true] at h
    obtain rfl := Host.Outcome.next.inj h
    constructor <;> simp [hm]
    rfl
  rcases Bool.eq_false_or_eq_true s.D.live with hl | hl
  · obtain ⟨hb, hs, hn⟩ := (Latch.live_iff _).mp hl
    simp only [State.atStage_E, State.atStage_D, hl, hm, if_true, Bool.false_eq_true, if_false] at h
    rw [exec_at_decode (by simp) (Latch.instr_ne_nop hn)] at h
    obtain rfl := Host.Outcome.next.inj h
    unfold decodeWith
    have hh : loadUseHazard (s.atStage .decode) s.D.instr ↔ loadUseHazard s s.D.instr := Iff.rfl
    by_cases hz : loadUseHazard s s.D.instr
    · rw [if_pos ((hazard_iff _ _).mpr (hh.mpr hz))]
      constructor <;> simp [hm, hl, hz, leaveDecode]
      rfl
    · rw [if_neg fun c => hz (hh.mp ((hazard_iff _ _).mp c))]
      rw [operandOrZero_eq, operandOrZero_eq]
      have hx : ∀ o, materialized (s.atStage .decode) o = materialized s o := fun o => by cases o <;> rfl
      simp only [hx]
      cases ho : s.D.op <;> simp only [ho, ne_eq, not_true] at hn <;>
        constructor <;>
        first
          | exact fun _ _ c => absurd c hz
          | (simp [hm, hl, leaveDecode, Latch.instr, instrOfFields, ho, decodeAction, Latch.isBranch, rewriteAfterHalt,
              armAfterRefresh, armWithParameter, refreshSnapshot]; done)
          | (rcases Bool.eq_false_or_eq_true s.snapshotOnBnz with hp | hp <;>
              simp [hm, hl, leaveDecode, Latch.instr, instrOfFields, ho, decodeAction, Latch.isBranch,
                armWithParameter, refreshSnapshot, hp])
  · simp only [State.atStage_E, State.atStage_D, hl, hm, Bool.false_eq_true, if_false] at h
    obtain rfl := Host.Outcome.next.inj h
    constructor <;> simp [hl, hm, leaveDecode]
    rfl

/-! ## Fetch -/

/-- What a Fetch that is not held reads into `F` (40_pipeline.md R176, R178). -/
def fetchedLatch (s : State) : Latch :=
  match fetchRecord s with
  | some r => latchOfRecord r s.pc
  | none => { Latch.cleared with pc := s.pc }

/-- Everything Fetch can do (40_pipeline.md R175 to R178). -/
theorem fetchStage_spec (s : State) :
    fetchStage s = .next
      (if s.F.busy = true ∨ s.F.stalled = true then { s with D := s.F, stage := .fetch }
        else if s.D.stalled = true then { s with F := fetchedLatch s, stage := .fetch }
        else { s with
          F := fetchedLatch s
          D := fetchedLatch s
          pc := s.pc + BitVec.ofNat 32 Config.insnWidth
          stage := .fetch }) := by
  unfold fetchStage
  by_cases hf : s.F.busy = true ∨ s.F.stalled = true
  · simp only [State.atStage_F, Bool.or_eq_true, hf, if_true]
    rfl
  · simp only [State.atStage_F, Bool.or_eq_true, hf, if_false]
    have hr : fetchRecord (s.atStage .fetch) = fetchRecord s := rfl
    have hl : fetchedLatch s = match fetchRecord s with
      | some r => latchOfRecord r s.pc
      | none => { Latch.cleared with pc := s.pc } := rfl
    rw [hr]
    cases h : fetchRecord s with
    | none =>
      simp only [h] at hl
      simp only [advanceFetch, State.setF_D, State.atStage_D, hl]
      by_cases hd : s.D.stalled = true <;> simp only [hd, if_true, if_false, Bool.false_eq_true] <;> rfl
    | some r =>
      simp only [h] at hl
      simp only
      rw [exec_at_fetch _ (by simp)]
      simp only [advanceFetch, State.setF_D, State.atStage_D, hl]
      by_cases hd : s.D.stalled = true <;> simp only [hd, if_true, if_false, Bool.false_eq_true] <;> rfl

/-- Fetch, field by field. -/
structure FetchSpec (s t : State) : Prop where
  held : s.F.busy = true ∨ s.F.stalled = true → t.F = s.F ∧ t.D = s.F ∧ t.pc = s.pc
  stall : s.F.busy = false → s.F.stalled = false → s.D.stalled = true →
    t.F = fetchedLatch s ∧ t.D = s.D ∧ t.pc = s.pc
  go : s.F.busy = false → s.F.stalled = false → s.D.stalled = false →
    t.F = fetchedLatch s ∧ t.D = fetchedLatch s ∧ t.pc = s.pc + BitVec.ofNat 32 Config.insnWidth
  x : t.x = s.x
  valid : t.valid = s.valid
  fwd : t.fwd = s.fwd
  prog : t.prog = s.prog
  dmem : t.dmem = s.dmem
  E : t.E = s.E
  M : t.M = s.M
  W : t.W = s.W
  clock : t.clock = s.clock
  insCompleted : t.insCompleted = s.insCompleted
  halted : t.halted = s.halted
  bp : t.bp = s.bp
  snapshot : t.snapshot = s.snapshot
  z : t.z = s.z
  fault : t.fault = s.fault
  snapshotOnBnz : t.snapshotOnBnz = s.snapshotOnBnz

theorem fetchStage_fields {s t : State} (h : fetchStage s = .next t) : FetchSpec s t := by
  rw [fetchStage_spec] at h
  obtain rfl := Host.Outcome.next.inj h
  by_cases h1 : s.F.busy = true ∨ s.F.stalled = true
  · rw [if_pos h1]
    constructor <;> simp <;> (intro a b; simp [a, b] at h1)
  · rw [if_neg h1]
    by_cases h2 : s.D.stalled = true
    · rw [if_pos h2]
      constructor <;> simp [h1, h2]
    · rw [if_neg h2]
      constructor <;> simp [h1, h2]

/-! ## The cycle and the step -/

theorem writebackStage_next (s : State) : ∃ t, writebackStage s = .next t := by
  unfold writebackStage
  simp only
  split
  · exact exec_next _ _
  · exact ⟨_, rfl⟩

theorem memoryStage_next (s : State) : ∃ t, memoryStage s = .next t := by
  unfold memoryStage
  simp only
  split
  · exact exec_next _ _
  · exact ⟨_, rfl⟩

theorem executeStage_next (s : State) : ∃ t, executeStage s = .next t := by
  unfold executeStage
  simp only
  split
  · exact exec_next _ _
  · exact ⟨_, rfl⟩

theorem decodeStage_next (s : State) : ∃ t, decodeStage s = .next t := by
  unfold decodeStage
  simp only
  split
  · exact ⟨_, rfl⟩
  · split
    · exact exec_next _ _
    · exact ⟨_, rfl⟩

/-- A step taken apart: the stages it evaluated, in order, and what it leaves (40_pipeline.md R172, R233). -/
inductive StepCases (s t : State) : Prop where
  | stopped (done : terminated s = true) (same : t = s)
  | faulted (w m : State) (live : terminated s = false) (hw : writebackStage s = .next w)
      (hm : memoryStage w = .next m) (hf : m.fault.valid = true) (ht : t = m.endCycle)
  | completed (w m e d f : State) (live : terminated s = false) (hw : writebackStage s = .next w)
      (hm : memoryStage w = .next m) (hf : m.fault.valid = false) (he : executeStage m = .next e)
      (hd : decodeStage e = .next d) (hff : fetchStage d = .next f) (ht : t = f.endCycle)

theorem step_cases {s t : State} (h : step s = .next t) : StepCases s t := by
  unfold step at h
  rcases Bool.eq_false_or_eq_true (terminated s) with hs | hs
  · rw [if_pos hs] at h
    exact .stopped hs (Host.Outcome.next.inj h).symm
  · rw [hs, if_neg (by simp)] at h
    unfold cycle at h
    obtain ⟨f, h, ht⟩ := andThen_eq_next h
    obtain ⟨m, h, hk⟩ := andThen_eq_next h
    obtain ⟨w, hw, hm⟩ := andThen_eq_next h
    have ht := (Host.Outcome.next.inj ht).symm
    rcases Bool.eq_false_or_eq_true m.fault.valid with hv | hv
    · rw [if_pos hv] at hk
      obtain rfl := Host.Outcome.next.inj hk
      exact .faulted w m hs hw hm hv ht
    · rw [hv, if_neg (by simp)] at hk
      unfold frontStages at hk
      obtain ⟨d, hk, hff⟩ := andThen_eq_next hk
      obtain ⟨e, he, hd⟩ := andThen_eq_next hk
      exact .completed w m e d f hs hw hm hv he hd hff ht

/-- Writeback changes nothing that the Memory fault test reads. -/
theorem raisesFault_writeback {s w : State} (h : WritebackSpec s w) : raisesFault w ↔ raisesFault s := by
  unfold raisesFault
  rw [h.M]

/-- Whether the cycle raises the fault, read from the state it starts in. -/
theorem memory_fault_iff {s w m : State} (hw : WritebackSpec s w) (hm : MemorySpec w m)
    (hs : s.fault.valid = false) : m.fault.valid = true ↔ raisesFault s := by
  rw [← raisesFault_writeback hw]
  by_cases hr : raisesFault w
  · simp [hr, (hm.raised hr).1]
  · simp [hr, (hm.passed hr).1, hw.fault, hs]

theorem not_terminated_iff (s : State) :
    terminated s = false ↔ s.halted = false ∧ s.insCompleted ≠ s.prog.length ∧ s.fault.valid = false := by
  simp [terminated, and_assoc]

end Sys2Proof.Machine
end

