-- ==== Sys2Proof/Tests/Slice0.lean ====
section
/-! SUPPORT. Tests: ill-formed terms refused, words written out from the encoding tables, one-step examples of the
spec, and a witness for the hypotheses of every statement that has some. -/

namespace Sys2Proof.Tests

open Sys2Proof.Machine Sys2Proof.Safety

/-! ## WellFormed refuses (70_reset_and_hazards.md R371) -/

/-- R137: NOP is the core's own. -/
theorem test_nop_refused : Instr.wellFormed .nop = false := by decide

/-- R371 (b). -/
theorem test_empty_program_refused : Program.nonempty [] = false ∧ Program.wellFormed [] = false := by decide

/-- R371 (d). -/
theorem test_program_with_nop_refused :
    Program.unreserved [.halt, .nop] = false ∧ Program.wellFormed [.halt, .nop] = false := by
  constructor
  · decide
  · simp [Program.wellFormed, Program.unreserved, Instr.wellFormed]

/-- R371 (c): one record more than the capacity. -/
theorem test_program_over_capacity_refused :
    Program.fits (List.replicate (Config.progCapacity + 1) .halt) = false := by simp [Program.fits]

/-- R371 (e): the addresses wrap exactly from 2^30 - 1001 records on, where 4000 + 4 * (N + 1) reaches 2^32. -/
theorem test_program_that_wraps_refused (n : Nat) :
    Program.addressable (List.replicate n .halt) = decide (n < 1073740823) := by
  unfold Program.addressable Config.pcBase Config.insnWidth
  rw [List.length_replicate, decide_eq_decide]
  have h : (4000 : Word).toNat = 4000 := rfl
  omega

theorem test_program_of_2_30_records_refused : Program.addressable (List.replicate (2 ^ 30) .halt) = false := by
  rw [test_program_that_wraps_refused]
  decide

/-! ## Decoding: the words of 30_encoding.md R139 and 95_test_vectors.md -/

theorem test_decode_movc : decode 0x010000000005 = .movc 1 5 := by decide

theorem test_decode_add : decode 0x131200000000 = .add 3 1 2 := by decide

theorem test_decode_addi : decode 0x2110FFFFFFFF = .addi 1 1 (-1) := by decide

theorem test_decode_sub : decode 0x331200000000 = .sub 3 1 2 := by decide

theorem test_decode_mul : decode 0x431200000000 = .mul 3 1 2 := by decide

theorem test_decode_and : decode 0x531200000000 = .and 3 1 2 := by decide

theorem test_decode_or : decode 0x641200000000 = .or 4 1 2 := by decide

theorem test_decode_xor : decode 0x751200000000 = .xor 5 1 2 := by decide

theorem test_decode_load : decode 0x812000000002 = .load 1 2 2 := by decide

theorem test_decode_ldr : decode 0x931200000000 = .ldr 3 1 2 := by decide

theorem test_decode_store : decode 0xA01200000002 = .store 1 2 2 := by decide

theorem test_decode_halt : decode 0xB00000000000 = .halt := by decide

theorem test_decode_jump : decode 0xC01000000000 = .jump 1 0 := by decide

theorem test_decode_bz : decode 0xD0000000000C = .bz 12 := by decide

theorem test_decode_bnz : decode 0xE000FFFFFFF8 = .bnz (-8) := by decide

theorem test_decode_nop : decode 0xF00000000000 = .nop := by decide

/-- R136: the fields HALT does not use are ignored. -/
theorem test_decode_ignores_unused : decode 0xB12345678901 = .halt := by decide

/-- R131: the field of STORE's base register is bits 35 to 32. -/
theorem test_encode_store : encode (.store 5 2 2) = 0xA05200000002 := by decide

/-- The table's numbering is the record's own. -/
theorem test_decode_table_word : decodeTableWord 48 0x431200000000 = some (.mul 3 1 2) := by decide

/-! ## Small states -/

/-- The state an outcome goes on with. -/
def after (o : Host.Outcome State Fault Refusal) : State := Outcome.stateOr State.reset o

/-- A latch with an occupant fetched from record 1. -/
def latch (op : Opcode) (rd rs1 rs2 : RegId) (imm : Word) : Latch :=
  { Latch.cleared with op := op, rd := rd, rs1 := rs1, rs2 := rs2, imm := imm, pc := 4004 }

/-- A state with four records and nothing in flight but what `f` puts there. -/
def small (g : Stage) (f : State → State) : State :=
  f { State.reset with
    prog := [encode (.movc 1 5), encode .halt, encode (.movc 2 6), encode (.movc 3 7)]
    pc := 4008
    D := Latch.cleared
    E := Latch.cleared
    M := Latch.cleared
    W := Latch.cleared
    stage := g }

/-- Execute is evaluated; the occupant of `E` has the operand values `a` and `b`. -/
def executing (a b : Word) : State :=
  small .execute fun s => s.setE { latch .halt 3 1 2 0 with rs1Value := a, rs2Value := b }

/-- What Execute of `i` on the operand values `a` and `b` leaves. -/
def executed (a b : Word) (i : Instr) : State := after (exec i (executing a b))

/-- Memory is evaluated; the occupant of `M` has the address `a`, and cell 12 holds 21. -/
def accessing (op : Opcode) (a : Word) : State :=
  small .memory fun s => (s.setM { latch op 1 1 2 0 with memAddress := a, rs1Value := 77 }).setMem [(12, 21)]

/-! ## One step of an instruction: examples of the rules' own corner cases -/

/-- R250: the immediate is published and `Z` is not written. -/
theorem test_movc : (executed 9 9 (.movc 1 0)).fwd[1] = 0 ∧ (executed 9 9 (.movc 1 0)).valid[1] = true ∧
    (executed 9 9 (.movc 1 0)).z = false := by decide

/-- ALU-2 of 95_test_vectors.md: the carry out is dropped and `Z` is set. -/
theorem test_add_wraps :
    (executed 0xFFFFFFFF 1 (.add 3 1 2)).M.result = 0 ∧ (executed 0xFFFFFFFF 1 (.add 3 1 2)).z = true := by decide

/-- R252: with a = 0 and imm = -1. -/
theorem test_addi_negative : (executed 0 9 (.addi 3 1 (-1))).M.result = 0xFFFFFFFF ∧
    (executed 0 9 (.addi 3 1 (-1))).z = false := by decide

/-- R253: 0x80000000 - 1, and the order of the operands. -/
theorem test_sub_order : (executed 0x80000000 1 (.sub 3 1 2)).M.result = 0x7FFFFFFF := by decide

/-- R254: the first cycle publishes nothing and passes a bubble. -/
theorem test_mul_first_cycle : (executed 6 7 (.mul 3 1 2)).M.live = false ∧
    (executed 6 7 (.mul 3 1 2)).valid[3] = false ∧ (executed 6 7 (.mul 3 1 2)).E.busy = true := by decide

/-- R254: 0x10000 * 0x10000 in the second cycle keeps the low 32 bits and sets `Z`. -/
theorem test_mul_second_cycle :
    let t := after (exec (.mul 3 1 2) (executed 0x10000 0x10000 (.mul 3 1 2)))
    t.M.result = 0 ∧ t.z = true ∧ t.E.busy = false := by decide

/-- R255. -/
theorem test_and : (executed 0xF0F0 0x0FF0 (.and 3 1 2)).M.result = 0x00F0 := by decide

/-- R256. -/
theorem test_or : (executed 0xF0F0 0x0FF0 (.or 3 1 2)).M.result = 0xFFF0 := by decide

/-- R257: a zero result does not set `Z`. -/
theorem test_xor : (executed 0xF0F0 0x0FF0 (.xor 3 1 2)).M.result = 0xFF00 ∧
    (executed 5 5 (.xor 3 1 2)).z = false := by decide

/-- R280: the loaded word goes to `W` and to `fwd`, and Decode's stall is released. -/
theorem test_load : let t := after (exec (.load 1 2 2) ((accessing .load 12).stallD true))
    t.W.result = 21 ∧ t.fwd[1] = 21 ∧ t.D.stalled = false := by decide

/-- R284: the first address out of range raises DATA_LOAD and writes neither `W` nor `fwd`. -/
theorem test_load_out_of_range : let t := after (exec (.load 1 2 2) (accessing .load 4096))
    t.fault = { valid := true, kind := .dataLoad, pc := 4004, addr := 4096 } ∧ t.W = Latch.cleared ∧
      t.fwd[1] = 0 := by decide

/-- R281: the address is published in Execute. -/
theorem test_ldr_publishes_address : (executed 20 5 (.ldr 3 1 2)).fwd[3] = 25 ∧
    (executed 20 5 (.ldr 3 1 2)).M.memAddress = 25 := by decide

/-- R281: Memory reads the word and does not publish it. -/
theorem test_ldr_reads : let t := after (exec (.ldr 1 1 2) (accessing .ldr 12))
    t.W.result = 21 ∧ t.fwd[1] = 0 := by decide

/-- R282: the base is `rs2`, whose value is 40 here. -/
theorem test_store_address : (executed 77 40 (.store 1 2 2)).M.memAddress = 42 := by decide

/-- R282: the value stored is `rs1`'s; the last cell there is. -/
theorem test_store : let t := after (exec (.store 1 2 2) (accessing .store 4095))
    Memory.read t.dmem 4095 = 77 ∧ Memory.read t.dmem 12 = 21 ∧ t.fault.valid = false := by decide

/-- R301: the records after the HALT become NOP and the others stay. -/
theorem test_halt_rewrites : (after (exec .halt (small .decode fun s => s.setD (latch .halt 0 0 0 0)))).prog =
    [encode (.movc 1 5), encode .halt, 0xF00000000000, 0xF00000000000] := by decide

/-- R300: retirement. -/
theorem test_halt_retires : let t := after (exec .halt (small .writeback id))
    t.halted = true ∧ t.insCompleted = 1 := by decide

/-- R305, from record 1: the target record 4 gives a correction of +2, and both stalls are set. -/
theorem test_jump : let t := executed 4016 0 (.jump 1 0)
    t.pc = 4016 ∧ t.insCompleted = 2 ∧ t.F.stalled = true ∧ t.D.stalled = true ∧ t.E.fault = false := by decide

/-- R303: the index one past the end is valid; the next, and a misaligned one, are not. -/
theorem test_jump_target_limits : (executed 4016 0 (.jump 1 4)).E.fault = true ∧
    (executed 4016 0 (.jump 1 2)).E.fault = true ∧ (executed 4016 0 (.jump 1 4)).pc = 4008 := by decide

/-- R310: BZ is taken on a set snapshot, relative to its own address. -/
theorem test_bz_taken : let t := after (exec (.bz 8) ((executing 0 0).setSnapshot true))
    t.pc = 4012 ∧ t.bp = .resolved ∧ t.F.stalled = false ∧ t.D.stalled = true := by decide

/-- R311: BZ in Decode copies `Z`, then arms. -/
theorem test_bz_refreshes : let t := after (exec (.bz 8) ((small .decode id).setZ true))
    t.snapshot = true ∧ t.bp = .armed := by decide

/-- R315: with the reset value of the snapshot, BNZ is taken. -/
theorem test_bnz_taken : (executed 0 0 (.bnz (-4))).pc = 4000 ∧ (executed 0 0 (.bnz (-4))).insCompleted = -2 := by
  decide

/-- R311: by default BNZ in Decode leaves the snapshot as it is. -/
theorem test_bnz_does_not_refresh : (after (exec (.bnz 8) ((small .decode id).setZ true))).snapshot = false := by
  decide

/-- R316: NOP in Writeback is not counted. -/
theorem test_nop : (after (exec .nop (small .writeback id))).insCompleted = 0 := by decide

/-- R372, R373: the first step after reset fetches the placed record and nothing retires. -/
theorem test_first_step_fetches : let t := after (step (State.reset.withFetchWord 48 0x010000000005))
    t.D = { Latch.cleared with op := .movc, rd := 1, imm := 5, pc := 4000 } ∧ t.pc = 4004 ∧ t.clock = 1 ∧
      t.insCompleted = 0 := by decide

/-- The shape of the memory: rising, without zeros. -/
theorem test_memory_canonical : Memory.write (Memory.write [(12, 21)] 4 7) 12 0 = [(4, 7)] := by decide

/-! ## Witnesses: a state and operands that meet all of a statement's hypotheses together, each clause in turn -/

/-- The outcome is a next state, namely `after` of it. -/
def answers (o : Host.Outcome State Fault Refusal) : Prop := o = .next (after o)

/-- A cycle boundary with the occupants `d`, `e`, `m`, `w` in `D`, `E`, `M`, `W`, `x[2] = 10` and Mem[12] = 21. -/
def boundary (d e m w : Latch) : State :=
  small .writeback fun s => ((((((s.setD d).setE e).setM m).setW w).setReg 2 10).setMem [(12, 21)])

/-- An ADD R1,R3,R3 in Decode, which reads R3 only. -/
def reader : Latch := latch .add 1 3 3 0

theorem witness_UnusedFieldsIgnored :
    Opcode.ldr ∈ [Opcode.add, .sub, .mul, .and, .or, .xor, .ldr] ∧ Opcode.load ∈ [Opcode.addi, .load] ∧
      Opcode.nop ∈ [Opcode.halt, .nop] ∧ Opcode.bnz ∈ [Opcode.bz, .bnz] := by decide

theorem witness_FirstStepFetchesPlacedWord : (0xB00000000000 : Nat) < 2 ^ 48 := by decide

theorem witness_FetchedInstructionMovesOn :
    (small .fetch id).stage = .fetch ∧ (small .fetch id).D.stalled = false ∧
      ((small .fetch id).stallD true).stage = .fetch ∧ ((small .fetch id).stallD true).D.stalled = true := by decide

theorem witness_HeldFetchPassesFUnchanged : (small .fetch fun s => s.stallF true).F.stalled = true := by decide

theorem witness_FetchReadsRecordAtPc :
    let s := small .fetch id
    let p := s.setPc 4016
    (s.F.busy = false ∧ s.F.stalled = false ∧ aligned s.pc = true ∧ s.prog[idx s.pc]? = some (encode (.movc 2 6))) ∧
      p.F.busy = false ∧ p.F.stalled = false ∧ p.prog.length ≤ idx p.pc := by decide

theorem witness_DecodeHoldsOrPassesBubble :
    let s := small .decode fun s => s.setE { latch .mul 3 1 2 0 with busy := true }
    let p := small .decode id
    (s.E.op = .mul ∧ s.E.busy = true ∧ s.E.stalled = false) ∧
      ¬(p.E.op = .mul ∧ p.E.busy = true ∧ p.E.stalled = false) ∧
      ¬(p.D.busy = false ∧ p.D.stalled = false ∧ p.D.op ≠ .nop) := by decide

/-- Pending on an LDR is no hazard; pending on a LOAD is one. -/
theorem witness_DecodeReadsActsAndPasses :
    let s := small .decode fun s => (s.setE (latch .ldr 1 1 2 0)).setValid 1 true
    Instr.add 3 1 1 ≠ .nop ∧ s.stage = .decode ∧ ¬loadUseHazard s (.add 3 1 1) := by
  unfold loadUseHazard pendingLoad
  decide

theorem witness_LoadUseHazardStalls :
    let s := small .decode fun s => (s.setE (latch .load 1 2 0 2)).setValid 1 true
    s.stage = .decode ∧ loadUseHazard s (.add 3 2 1) ∧ loadUseHazard s (.jump 1 0) := by
  unfold loadUseHazard pendingLoad
  decide

theorem witness_HaltRewritesLaterRecords :
    let s := small .decode fun s => s.setD (latch .halt 0 0 0 0)
    s.stage = .decode ∧ idx s.D.pc = 1 ∧ 2 < s.prog.length ∧
      fetchRecord { s with pc := 4012 } = some (encode (.movc 3 7)) := by decide

theorem witness_BubbleExecuteChangesNothing :
    let s := small .execute fun s => s.setE { latch .add 3 1 2 0 with stalled := true }
    ¬(s.E.op = .mul ∧ s.E.busy = true ∧ s.E.stalled = false) ∧
      ¬(s.E.busy = false ∧ s.E.stalled = false ∧ s.E.op ≠ .nop) := by decide

theorem witness_MoveAndLogicExecute : (executing 6 7).stage = .execute := by decide

theorem witness_ArithmeticExecutes :
    (executing 6 7).stage = .execute ∧ 6 = (executing 6 7).E.rs1Value.toNat ∧ 7 = (executing 6 7).E.rs2Value.toNat := by
  decide

theorem witness_MulTakesTwoExecuteCycles :
    let s := executing 6 7
    let t := executed 6 7 (.mul 3 1 2)
    (s.stage = .execute ∧ 42 = BitVec.ofNat 32 (s.E.rs1Value.toNat * s.E.rs2Value.toNat) ∧ s.E.busy = false) ∧
      t.stage = .execute ∧ 42 = BitVec.ofNat 32 (t.E.rs1Value.toNat * t.E.rs2Value.toNat) ∧ t.E.busy = true := by decide

/-- The last address in range, and the word there. -/
theorem witness_LoadComputesAddressThenReads :
    let s := accessing .load 4095
    ((executing 10 0).stage = .execute ∧ 12 = (executing 10 0).E.rs1Value + 2) ∧
      s.stage = .memory ∧ s.M.fault = false ∧ s.M.memAddress.toNat < Config.dmemWords ∧
      0 = Memory.read s.dmem s.M.memAddress.toNat := by decide

theorem witness_LdrPublishesAddressThenReads :
    let s := accessing .ldr 4095
    ((executing 20 5).stage = .execute ∧ 25 = (executing 20 5).E.rs1Value + (executing 20 5).E.rs2Value) ∧
      s.stage = .memory ∧ s.M.fault = false ∧ s.M.memAddress.toNat < Config.dmemWords := by decide

theorem witness_StoreWritesOneWord :
    let s := accessing .store 4095
    ((executing 77 40).stage = .execute ∧ 42 = (executing 77 40).E.rs2Value + 2) ∧
      s.stage = .memory ∧ memoryCanonical s ∧ s.M.fault = false ∧ s.M.memAddress.toNat < Config.dmemWords := by
  unfold memoryCanonical
  decide

/-- The program has four records: index 4 is accepted, index 5 and a misaligned target are not. -/
theorem witness_JumpRedirectsOrMarksFault :
    let s := executing 4016 0
    s.stage = .execute ∧ (4016 = s.E.rs1Value + 0 ∧ targetAccepted s.prog.length 4016) ∧
      (4020 = s.E.rs1Value + 4 ∧ ¬targetAccepted s.prog.length 4020) ∧
      4018 = s.E.rs1Value + 2 ∧ ¬targetAccepted s.prog.length 4018 := by
  unfold targetAccepted
  decide

theorem witness_BranchesResolveOnSnapshot :
    let s := executing 0 0
    let p := (executing 0 0).setSnapshot true
    s.stage = .execute ∧ (s.snapshot = decide (Instr.bz 12 = .bnz 12) ∧ p.snapshot = decide (Instr.bnz 12 = .bnz 12)) ∧
      (4016 = p.E.pc + 12 ∧ p.snapshot = decide (Instr.bz 12 = .bz 12) ∧ targetAccepted p.prog.length 4016) ∧
      (4020 = s.E.pc + 16 ∧ s.snapshot = decide (Instr.bnz 16 = .bz 16) ∧ ¬targetAccepted s.prog.length 4020) := by
  unfold targetAccepted
  decide

theorem witness_HaltOnlySetsHaltedAtRetirement :
    (executing 0 0).stage = .execute ∧ (accessing .halt 0).stage = .memory ∧ (accessing .halt 0).M.fault = false ∧
      (small .writeback id).stage = .writeback := by decide

theorem witness_NopIsABubbleEverywhere :
    Latch.cleared.op = .nop ∧ (small .decode id).stage = .decode ∧ (small .execute id).stage = .execute ∧
      (small .memory id).stage = .memory ∧ (small .writeback id).stage = .writeback ∧
      (small .writeback id).bp ≠ .resolved := by decide

theorem witness_MemoryPassesAndReleasesJump :
    let s := small .memory id
    let p := accessing .jump 0
    ¬(s.M.busy = false ∧ s.M.stalled = false ∧ s.M.op ≠ .nop) ∧ p.stage = .memory ∧ p.M.fault = false ∧
      accessesData (.add 3 1 2) = false ∧ ∀ rs1 imm, Instr.add 3 1 2 ≠ .jump rs1 imm := by
  refine ⟨by decide, by decide, by decide, by decide, fun _ _ h => by cases h⟩

theorem witness_DeferredControlFaultIsRaised :
    let s := small .memory fun s => s.setM { latch .bz 0 0 0 2 with fault := true }
    Instr.bz 2 ≠ .nop ∧ s.stage = .memory ∧ s.M.fault = true := by decide

/-- The first address out of range. -/
theorem witness_OutOfRangeAccessIsRaised :
    let s := accessing .store 4096
    accessesData (.store 1 2 2) = true ∧ accessesData (.ldr 3 1 2) = true ∧ s.stage = .memory ∧ s.M.fault = false ∧
      Config.dmemWords ≤ s.M.memAddress.toNat := by decide

theorem witness_RetirementCommitsAndCounts :
    (small .writeback id).stage = .writeback ∧ (Instr.ldr 3 1 2 ≠ .nop ∧ destination (.ldr 3 1 2) = some 3) ∧
      Instr.halt ≠ .nop ∧ destination .halt = none := by decide

theorem witness_EmptyWritebackReleasesBranchStall :
    let s := small .writeback id
    ¬(s.W.busy = false ∧ s.W.stalled = false ∧ s.W.op ≠ .nop) ∧ s.bp ≠ .resolved ∧
      (s.setBp .resolved).bp = .resolved ∧
      ¬((s.setBp .resolved).W.busy = false ∧ (s.setBp .resolved).W.stalled = false ∧
        (s.setBp .resolved).W.op ≠ .nop) := by decide

theorem witness_FrameOfRegisterTables : answers (exec (.add 3 1 2) (executing 6 7)) := rfl

theorem witness_FrameOfFlags : answers (exec (.sub 3 1 2) (executing 6 6)) := rfl

theorem witness_FrameOfMemoryAndProgram :
    memoryCanonical (accessing .store 4095) ∧ answers (exec (.store 1 2 2) (accessing .store 4095)) :=
  ⟨by unfold memoryCanonical; decide, rfl⟩

theorem witness_FrameOfControlAndLatches : answers (exec (.jump 1 0) (executing 4016 0)) := rfl

theorem witness_StagesRunTheirOccupants :
    let s := boundary (latch .add 3 1 2 0) (latch .mul 3 1 2 0) (latch .load 1 2 0 2) (latch .movc 1 0 0 5)
    (s.W.busy = false ∧ s.W.stalled = false ∧ s.W.op ≠ .nop) ∧ (s.M.busy = false ∧ s.M.stalled = false ∧ s.M.op ≠ .nop) ∧
      (s.E.stalled = false ∧ s.E.op ≠ .nop ∧ s.E.busy = false) ∧
      (s.D.busy = false ∧ s.D.stalled = false ∧ s.D.op ≠ .nop) ∧
      ¬(s.E.op = .mul ∧ s.E.busy = true ∧ s.E.stalled = false) ∧ s.F.busy = false ∧ s.F.stalled = false ∧
      aligned s.pc = true ∧ s.prog[idx s.pc]? = some (encode (.movc 2 6)) := by decide

/-- A cycle with no fault, and one that raises it. -/
theorem witness_StepRunsDecodedInstruction :
    let s := boundary reader (latch .movc 3 0 0 5) Latch.cleared Latch.cleared
    let p := boundary reader Latch.cleared { latch .load 1 2 0 2 with memAddress := 4096 } Latch.cleared
    let d := after (decodeStage (after (executeStage (after (memoryStage (after (writebackStage s)))))))
    (terminated s = false ∧ answers (writebackStage s) ∧ answers (memoryStage (after (writebackStage s))) ∧
      (after (memoryStage (after (writebackStage s)))).fault.valid = false ∧
      answers (executeStage (after (memoryStage (after (writebackStage s))))) ∧ answers (fetchStage d) ∧
      d.F.busy = false ∧ d.F.stalled = false ∧ aligned d.pc = true ∧ d.prog[idx d.pc]? = some (encode (.movc 2 6))) ∧
      terminated p = false ∧ (after (memoryStage (after (writebackStage p)))).fault.valid = true := by
  refine ⟨⟨by decide, rfl, rfl, by decide, rfl, rfl, by decide, by decide, by decide, by decide⟩, by decide, by decide⟩

/-- A terminated core, and one that is not. -/
theorem witness_ClockCountsEveryCycle :
    let s := boundary reader (latch .movc 3 0 0 5) Latch.cleared Latch.cleared
    (answers (step s) ∧ s.halted = false ∧ s.insCompleted ≠ s.prog.length ∧ s.fault.valid = false) ∧
      answers (step s.setHalted) ∧ s.setHalted.halted = true :=
  ⟨⟨rfl, by decide, by decide, by decide⟩, rfl, by decide⟩

theorem witness_OnlyRetirementWritesRegisters :
    let s := boundary reader Latch.cleared Latch.cleared { latch .movc 3 0 0 5 with result := 5 }
    terminated s = false ∧ answers (step s) ∧ s.W.writes 3 = true := ⟨by decide, rfl, by decide⟩

/-- A cycle that faults, one that redirects, one that does neither. -/
theorem witness_CountAndPcOfACycle :
    let f := boundary reader Latch.cleared { latch .load 1 2 0 2 with memAddress := 4096 } Latch.cleared
    let j := boundary reader { latch .jump 0 1 0 0 with rs1Value := 4016 } Latch.cleared Latch.cleared
    let s := boundary reader (latch .movc 3 0 0 5) Latch.cleared Latch.cleared
    (terminated f = false ∧ answers (step f) ∧ raisesFault f) ∧
      (terminated j = false ∧ answers (step j) ∧ ¬raisesFault j ∧ redirectsTo j 4016) ∧
      terminated s = false ∧ answers (step s) ∧ ¬raisesFault s ∧ ∀ a, ¬redirectsTo s a := by
  unfold raisesFault redirectsTo targetAccepted
  refine ⟨⟨by decide, rfl, by decide⟩, ⟨by decide, rfl, by decide, by decide⟩, by decide, rfl, by decide, ?_⟩
  rintro a ⟨-, -, ⟨h, -⟩ | ⟨-, ⟨h, -⟩ | ⟨h, -⟩⟩⟩ <;> cases h

theorem witness_ProgramStoreChangesOnlyByHalt :
    answers (step (boundary (latch .halt 0 0 0 0) Latch.cleared Latch.cleared Latch.cleared)) := rfl

theorem witness_FaultCycleIsPrecise :
    let f := boundary reader Latch.cleared { latch .store 0 1 2 2 with memAddress := 4096 } (latch .movc 3 0 0 5)
    terminated f = false ∧ raisesFault f ∧ answers (step f) := by
  unfold raisesFault
  exact ⟨by decide, by decide, rfl⟩

/-- An empty Execute leaves every register to Decode. -/
theorem executeLeaves_of_cleared (s : State) (r : RegId) (h : s.E = Latch.cleared) : executeLeaves s r := by
  unfold executeLeaves redirectsTo publishes
  rw [h]
  exact ⟨fun c => (by cases c), fun _ c => (by cases c.1), fun _ c => (by cases c.2.2)⟩

/-- The hypotheses of ConsumerReadsForwardedValue but for the source of the value. -/
def consumes (s : State) : Prop :=
  terminated s = false ∧ ¬raisesFault s ∧ answers (step s) ∧ decodable s ∧ sourceRs1 s.D.instr = some 3 ∧
    sourceRs2 s.D.instr = some 3

/-- Execute publishes: a single-cycle producer, and a MUL in its second cycle with `D` held. -/
theorem witness_ConsumerReadsForwardedValue_published :
    let a := boundary reader { latch .sub 3 1 2 0 with rs1Value := 9, rs2Value := 2 } Latch.cleared Latch.cleared
    let m := boundary { reader with stalled := true }
      { latch .mul 3 1 2 0 with rs1Value := 6, rs2Value := 7, busy := true } Latch.cleared Latch.cleared
    (consumes a ∧ publishes a 3 7) ∧ consumes m ∧ publishes m 3 42 := by
  unfold consumes raisesFault decodable publishes
  exact ⟨⟨⟨by decide, by decide, rfl, by decide, by decide, by decide⟩, by decide⟩,
    ⟨by decide, by decide, rfl, by decide, by decide, by decide⟩, by decide⟩

/-- Memory: a LOAD that releases a held `D`, and a value an ADD published in the cycle before. -/
theorem witness_ConsumerReadsForwardedValue_inMemory :
    let l := (boundary { reader with stalled := true } Latch.cleared { latch .load 3 2 0 2 with memAddress := 12 }
      Latch.cleared).setValid 3 true
    let p := ((boundary reader Latch.cleared { latch .add 3 1 2 0 with result := 8 } Latch.cleared).setFwd 3 8).setValid
      3 true
    (consumes l ∧ executeLeaves l 3 ∧ l.valid[3] = true ∧ l.M.writes 3 = true ∧ l.M.op = .load ∧
      21 = Memory.read l.dmem l.M.memAddress.toNat) ∧
      consumes p ∧ executeLeaves p 3 ∧ p.valid[3] = true ∧ p.M.writes 3 = true ∧ p.M.op ≠ .load ∧ 8 = p.fwd[3] := by
  unfold consumes raisesFault decodable
  exact ⟨⟨⟨by decide, by decide, rfl, by decide, by decide, by decide⟩, executeLeaves_of_cleared _ _ rfl, by decide,
      by decide, by decide, by decide⟩,
    ⟨by decide, by decide, rfl, by decide, by decide, by decide⟩, executeLeaves_of_cleared _ _ rfl, by decide,
    by decide, by decide, by decide⟩

/-- The register file: a writer that retires in this cycle, and a register with nothing in flight. -/
theorem witness_ConsumerReadsForwardedValue_register :
    let w := (boundary reader Latch.cleared Latch.cleared { latch .movc 3 0 0 5 with result := 5 }).setValid 3 true
    let x := (boundary reader Latch.cleared Latch.cleared Latch.cleared).setReg 3 6
    (consumes w ∧ executeLeaves w 3 ∧ w.M.writes 3 = false ∧ w.W.writes 3 = true ∧ 5 = w.W.result) ∧
      consumes x ∧ executeLeaves x 3 ∧ x.valid[3] = false ∧ x.W.writes 3 = false ∧ 6 = x.x[3] := by
  unfold consumes raisesFault decodable
  exact ⟨⟨⟨by decide, by decide, rfl, by decide, by decide, by decide⟩, executeLeaves_of_cleared _ _ rfl, by decide,
      by decide, by decide⟩,
    ⟨by decide, by decide, rfl, by decide, by decide, by decide⟩, executeLeaves_of_cleared _ _ rfl, by decide,
    by decide, by decide⟩

theorem witness_LdrConsumerReadsAddress :
    let s := boundary reader { latch .ldr 3 1 2 0 with rs1Value := 7, rs2Value := 5 } Latch.cleared Latch.cleared
    terminated s = false ∧ ¬raisesFault s ∧ answers (step s) ∧ s.D.live = true ∧ s.F.stalled = false ∧
      s.F.busy = false ∧ sourceRs1 s.D.instr = some 3 ∧ s.E.live = true ∧ s.E.op = .ldr ∧ s.E.rd = 3 := by
  unfold raisesFault
  exact ⟨by decide, by decide, rfl, by decide, by decide, by decide, by decide, by decide, by decide, by decide⟩

theorem witness_LoadUseCostsOneCycle :
    let s := boundary reader { latch .load 3 2 0 2 with rs1Value := 10 } Latch.cleared Latch.cleared
    let t := after (step s)
    (terminated s = false ∧ ¬raisesFault s ∧ answers (step s) ∧ s.F.busy = false ∧ s.F.stalled = false ∧
      s.D.live = true ∧ sourceRs1 s.D.instr = some 3 ∧ s.E.live = true ∧ s.E.op = .load ∧ s.E.rd = 3) ∧
      terminated t = false ∧ ¬raisesFault t ∧ answers (step t) := by
  unfold raisesFault
  exact ⟨⟨by decide, by decide, rfl, by decide, by decide, by decide, by decide, by decide, by decide, by decide⟩,
    by decide, by decide, rfl⟩

theorem witness_MulHoldsNextInstructionOneCycle :
    let s := boundary reader { latch .mul 3 1 2 0 with rs1Value := 6, rs2Value := 7 } Latch.cleared Latch.cleared
    let t := after (step s)
    (terminated s = false ∧ ¬raisesFault s ∧ answers (step s) ∧ s.F.busy = false ∧ s.F.stalled = false ∧
      s.D.live = true ∧ s.E.live = true ∧ s.E.op = .mul) ∧
      terminated t = false ∧ answers (step t) ∧ sourceRs1 s.D.instr = some s.E.rd := by
  unfold raisesFault
  exact ⟨⟨by decide, by decide, rfl, by decide, by decide, by decide, by decide, by decide⟩, by decide, rfl, by decide⟩

/-- The hypotheses on the first of the cycles. -/
def transfersTo (s : State) (a : Word) : Prop :=
  terminated s = false ∧ ¬raisesFault s ∧ answers (step s) ∧ s.E.fault = false ∧ redirectsTo s a

/-- A JUMP; a taken branch behind a bubble; a taken branch behind a live latch, whose target comes two cycles later. -/
theorem witness_TargetReachesDecodeAfterPenalty :
    let j := boundary reader { latch .jump 0 1 0 0 with rs1Value := 4012 } Latch.cleared Latch.cleared
    let b := boundary reader (latch .bnz 0 0 0 8) Latch.cleared Latch.cleared
    let c := boundary reader (latch .bnz 0 0 0 8) (latch .movc 3 0 0 5) Latch.cleared
    let t := after (step c)
    let u := after (step t)
    let v := after (step u)
    (transfersTo j 4012 ∧ j.E.op = .jump ∧ terminated (after (step j)) = false ∧ answers (step (after (step j))) ∧
      j.prog[idx 4012]? = some (encode (.movc 3 7))) ∧
      (transfersTo b 4012 ∧ b.E.op ≠ .jump ∧ b.M.live = false ∧ terminated (after (step b)) = false ∧
        answers (step (after (step b)))) ∧
      (transfersTo c 4012 ∧ c.E.op ≠ .jump ∧ c.M.live = true) ∧ (terminated t = false ∧ answers (step t)) ∧
      (terminated u = false ∧ answers (step u)) ∧ terminated v = false ∧ answers (step v) := by
  unfold transfersTo raisesFault redirectsTo targetAccepted
  exact ⟨⟨⟨by decide, by decide, rfl, by decide, by decide⟩, by decide, by decide, rfl, by decide⟩,
    ⟨⟨by decide, by decide, rfl, by decide, by decide⟩, by decide, by decide, by decide, rfl⟩,
    ⟨⟨by decide, by decide, rfl, by decide, by decide⟩, by decide, by decide⟩, ⟨by decide, rfl⟩, ⟨by decide, rfl⟩,
    by decide, rfl⟩

theorem witness_LoadAfterStoreReadsStoredWord :
    let s := accessing .store 4095
    let t := after (exec (.store 1 2 2) s)
    let u := t.setM { latch .load 1 2 0 2 with memAddress := 4095 }
    memoryCanonical s ∧ s.stage = .memory ∧ s.M.fault = false ∧ s.M.memAddress.toNat < Config.dmemWords ∧
      answers (exec (.store 1 2 2) s) ∧ u.stage = .memory ∧ u.dmem = t.dmem ∧ u.M.fault = false ∧
      u.M.memAddress = s.M.memAddress ∧ answers (exec (.load 1 2 2) u) := by
  unfold memoryCanonical
  exact ⟨by decide, by decide, by decide, by decide, rfl, by decide, by decide, by decide, by decide, rfl⟩

theorem witness_StepKeepsMemoryCanonical :
    let s := boundary reader Latch.cleared { latch .store 0 1 2 2 with memAddress := 4095, rs1Value := 77 } Latch.cleared
    memoryCanonical s ∧ answers (step s) ∧ (after (step s)).dmem = [(12, 21), (4095, 77)] := by
  unfold memoryCanonical
  exact ⟨by decide, rfl, by decide⟩

theorem witness_StepKeepsPcAligned :
    let s := boundary reader { latch .jump 0 1 0 0 with rs1Value := 4016 } Latch.cleared Latch.cleared
    pcAligned s ∧ answers (step s) := ⟨⟨2, by decide⟩, rfl⟩

theorem witness_StepKeepsPendingExact :
    let s := (boundary reader (latch .add 5 1 2 0) Latch.cleared (latch .movc 3 0 0 5)).setValid 3 true
    pendingExact s ∧ answers (step s) ∧ (after (step s)).fault.valid = false := by
  unfold pendingExact
  exact ⟨by decide, rfl, by decide⟩

theorem witness_FreshCoreMeetsInvariants :
    freshCore true [encode .halt] = State.reset ∨ ∃ b p, freshCore true [encode .halt] = freshCore b p :=
  .inr ⟨true, [encode .halt], rfl⟩

/-- The state a taken branch leaves: `D` and `E` stalled, `bp` resolved, the branch in `M`. -/
theorem witness_StepKeepsStallSources :
    let s := (boundary { Latch.cleared with stalled := true } { Latch.cleared with stalled := true }
      (latch .bnz 0 0 0 8) Latch.cleared).setBp .resolved
    stallsHaveSources s ∧ answers (step s) :=
  ⟨⟨by decide, by decide, by decide, by decide⟩, rfl⟩

theorem witness_EveryStallEndsWithinThreeCycles :
    let s := (boundary { Latch.cleared with stalled := true } { Latch.cleared with stalled := true }
      (latch .bnz 0 0 0 8) (latch .movc 3 0 0 5)).setBp .resolved
    stallsHaveSources s ∧ s.D.stalled = true := ⟨⟨by decide, by decide, by decide, by decide⟩, by decide⟩

/-- One record is accepted, whatever the capacity is. -/
theorem witness_InitBuildsFreshCore :
    init true (.records [encode .halt]) = .ok (freshCore true [encode .halt]) := by
  have h : initFailure [encode .halt] = none := by
    have e : decode (encode .halt) = .halt := by decide
    simp [initFailure, Program.nonempty, Program.fits, Program.unreserved, Program.addressable, e, Instr.wellFormed,
      Config.progCapacity, Config.pcBase, Config.insnWidth]
  simp only [init, h]

/-- R371 (a), (b), (d): the refusals that no open parameter decides. -/
theorem test_init_refuses :
    init false .failure = .error .loadFailure ∧ init false (.records []) = .error .emptyProgram := by
  constructor <;> rfl

theorem witness_RunIsResumableAndIdempotent :
    let s := boundary reader (latch .movc 3 0 0 5) Latch.cleared Latch.cleared
    2 ≤ 3 ∧ answers (run 2 s) ∧ (after (run 2 s)).clock = 2 := ⟨by decide, rfl, by decide⟩

/-- A cycle with a fault and one without. -/
theorem witness_TraceHasOneRecordPerEvaluatedStage :
    let f := boundary reader Latch.cleared { latch .load 1 2 0 2 with memAddress := 4096 } Latch.cleared
    let s := boundary reader (latch .movc 3 0 0 5) Latch.cleared Latch.cleared
    let m := after (memoryStage (after (writebackStage s)))
    let e := after (executeStage m)
    (terminated f = false ∧ answers (writebackStage f) ∧ answers (memoryStage (after (writebackStage f))) ∧
      raisesFault f) ∧
      (terminated s = false ∧ answers (writebackStage s) ∧ answers (memoryStage (after (writebackStage s))) ∧
        ¬raisesFault s) ∧
      answers (executeStage m) ∧ answers (decodeStage e) ∧ answers (fetchStage (after (decodeStage e))) := by
  unfold raisesFault
  exact ⟨⟨by decide, rfl, rfl, by decide⟩, ⟨by decide, rfl, rfl, by decide⟩, rfl, rfl, rfl⟩

/-- The whole-instruction statements: `i` is the record at the pc of a core that has not terminated. -/
def nextIs (i : Instr) : State := small .writeback fun s => s.setProg [encode .halt, encode .halt, encode i]

theorem witness_SequentialAluInstruction :
    let s := nextIs (.add 3 1 2)
    terminated s = false ∧ aligned s.pc = true ∧ s.prog[idx s.pc]? = some (encode (.add 3 1 2)) ∧
      (0 : Word) = s.x[1] + s.x[2] ∧ true = decide ((0 : Word) = 0) := by decide

/-- An address in range, and one out of range. -/
theorem witness_SequentialMemoryInstruction :
    let s := nextIs (.store 1 2 4095)
    let p := nextIs (.load 1 2 4096)
    (terminated s = false ∧ memoryCanonical s ∧ aligned s.pc = true ∧
      s.prog[idx s.pc]? = some (encode (.store 1 2 4095)) ∧ 4095 = s.x[2] + 4095 ∧
      (4095 : Word).toNat < Config.dmemWords) ∧
      terminated p = false ∧ memoryCanonical p ∧ aligned p.pc = true ∧
        p.prog[idx p.pc]? = some (encode (.load 1 2 4096)) ∧ 4096 = p.x[2] + 4096 ∧
        Config.dmemWords ≤ (4096 : Word).toNat := by
  unfold memoryCanonical
  decide

/-- Three records: index 3 is accepted, index 4 is not; the third clause's branch is not taken. -/
theorem witness_SequentialControlInstruction :
    let j := nextIs (.jump 1 4012)
    let f := nextIs (.jump 1 4016)
    let b := nextIs (.bz 4)
    (terminated j = false ∧ aligned j.pc = true ∧ j.prog[idx j.pc]? = some (encode (.jump 1 4012)) ∧
      4012 = j.x[1] + 4012 ∧ targetAccepted j.prog.length 4012) ∧
      (terminated f = false ∧ aligned f.pc = true ∧ f.prog[idx f.pc]? = some (encode (.jump 1 4016)) ∧
        4016 = f.x[1] + 4016 ∧ ¬targetAccepted f.prog.length 4016) ∧
      terminated b = false ∧ aligned b.pc = true ∧ b.prog[idx b.pc]? = some (encode (.bz 4)) ∧
        4012 = b.pc + 4 ∧ false = b.z := by
  unfold targetAccepted
  decide

end Sys2Proof.Tests
end

section
/-! PROOFS. The pipeline's statements (40_pipeline.md): what a stage procedure does when it has nothing to do, MUL's
two cycles, retirement, and the value a consumer receives. -/

namespace Sys2Proof.Machine

open Sys2Proof.Safety

/-! ## Records -/

theorem opcodeOfCode_codeOfOpcode (op : Opcode) : opcodeOfCode (codeOfOpcode op) = op := by
  cases op <;> rfl

@[simp] theorem opField_recordOfFields (op : Opcode) (rd rs1 rs2 : RegId) (imm : Word) :
    opField (recordOfFields op rd rs1 rs2 imm) = op := by
  rw [opField, Laws.OpcodeField.of_fields, opcodeOfCode_codeOfOpcode]

/-! ## Latches in the words of the rules -/

theorem Latch.live_eq_false_iff (l : Latch) :
    l.live = false ↔ ¬(l.busy = false ∧ l.stalled = false ∧ l.op ≠ .nop) := by
  rw [← l.live_iff, Bool.not_eq_true]

theorem Latch.mulPending_eq_false_iff (l : Latch) :
    l.mulPending = false ↔ ¬(l.op = .mul ∧ l.busy = true ∧ l.stalled = false) := by
  rw [← l.mulPending_iff, Bool.not_eq_true]

/-! ## A stage procedure with nothing to run -/

theorem memoryStage_of_not_live {s : State} (hl : s.M.live = false) :
    memoryStage s = .next (leaveMemory (s.atStage .memory)) := by
  simp [memoryStage, hl]

theorem executeStage_of_idle {s : State} (hm : s.E.mulPending = false) (hl : s.E.live = false) :
    executeStage s = .next (leaveExecute (s.atStage .execute)) := by
  simp [executeStage, hm, hl]

/-! ## Memory without a data access -/

theorem passMemory_of_no_fault (action : State → State) {s : State} (hf : s.M.fault = false) :
    passMemory action s = leaveMemory (action s) := by
  simp [passMemory, hf]

/-- Of the instructions that access no data, only JUMP has a Memory action (40_pipeline.md R213, 43_control.md
R306). -/
theorem memoryAction_of_no_access {i : Instr} {s : State} (ha : accessesData i = false)
    (hj : ∀ rs1 imm, i ≠ .jump rs1 imm) (hf : s.M.fault = false) : memoryAction i s = leaveMemory s := by
  cases i with
  | load | ldr | store => cases ha
  | jump rs1 imm => exact absurd rfl (hj rs1 imm)
  | nop => rfl
  | _ => exact passMemory_of_no_fault id hf

/-! ## Retirement -/

theorem writebackAction_of_writer {i : Instr} {rd : RegId} (h : destination i = some rd) (s : State) :
    writebackAction i s = retireWriter rd s := by
  simp [writebackAction, h]

theorem retireWriter_eq (rd : RegId) (s : State) :
    retireWriter rd s = { s with
      x := s.x.set rd s.W.result
      valid := if s.M.live = true ∧ writesRegister s.M.op = true ∧ s.M.rd = rd then s.valid
        else s.valid.set rd false
      insCompleted := s.insCompleted + 1 } := by
  simp only [retireWriter, Latch.writes_iff]
  split <;> rfl

theorem writebackAction_of_no_destination {i : Instr} (hi : i ≠ .nop) (h : destination i = none) (s : State) :
    writebackAction i s =
      { s with halted := s.halted || decide (i = .halt), insCompleted := s.insCompleted + 1 } := by
  cases i with
  | nop => exact absurd rfl hi
  | halt => simp [writebackAction, destination, retire, State.setHalted, State.count]
  | store | jump | bz | bnz => simp [writebackAction, destination, retire, State.count]
  | _ => cases h

/-! ## The two Execute cycles of MUL -/

theorem executeMulFirst_eq (s : State) :
    executeMulFirst s = { s with E := { s.E with busy := true }, M := { s.E with busy := true } } := rfl

theorem executeMulSecond_eq (rd : RegId) (v : Word) (s : State) :
    executeMulSecond rd v s = { s with
      E := { s.E with result := v, busy := false }
      M := { s.E with result := v, busy := false }
      D := { s.D with stalled := false }
      fwd := s.fwd.set rd v
      valid := s.valid.set rd true
      z := decide (v = 0) } := rfl

/-! ## The value a consumer receives -/

/-- The stages of a cycle that raises no fault, each with all it can do (40_pipeline.md R172). -/
theorem step_stages {s t : State} (hlive : terminated s = false) (hr : ¬raisesFault s) (h : step s = .next t) :
    ∃ w m e d f, WritebackSpec s w ∧ MemorySpec w m ∧ ¬raisesFault w ∧ ExecuteSpec m e ∧ DecodeSpec e d ∧
      FetchSpec d f ∧ t = f.endCycle := by
  have hv : s.fault.valid = false := ((not_terminated_iff s).mp hlive).2.2
  cases step_cases h with
  | stopped done _ => rw [hlive] at done; cases done
  | faulted w m _ hw hm hf _ =>
    exact absurd ((memory_fault_iff (writebackStage_spec hw) (memoryStage_spec hm) hv).mp hf) hr
  | completed w m e d f _ hw hm _ he hd hff ht =>
    have ws := writebackStage_spec hw
    exact ⟨w, m, e, d, f, ws, memoryStage_spec hm, mt (raisesFault_writeback ws).mp hr, executeStage_spec he,
      decodeStage_spec hd, fetchStage_fields hff, ht⟩

/-- Execute of the next cycle lets the occupant of `D` be decoded: no MUL in its first cycle, no LOAD, no redirect. -/
def executeClear (s : State) : Prop :=
  (s.E.live = true → s.E.op ≠ .mul ∧ s.E.op ≠ .load) ∧ ∀ a, ¬redirectsTo s a

theorem executeClear_of_leaves {s : State} {r : RegId} (h : executeLeaves s r) : executeClear s := by
  obtain ⟨hfree, hredirect, -⟩ := h
  exact ⟨hfree, hredirect⟩

/-- What publishes in Execute writes its destination, and is no LOAD and no control transfer. -/
theorem op_of_publishedValue {l : Latch} {v : Word} (h : publishedValue l = some v) :
    writesRegister l.op = true ∧ l.op ≠ .load := by
  cases ho : l.op <;> simp [publishedValue, ho] at h <;> simp [writesRegister]

/-- A destination writer other than LOAD publishes in Execute. -/
theorem exists_publishedValue {l : Latch} (hw : writesRegister l.op = true) (hl : l.op ≠ .load) :
    ∃ v, publishedValue l = some v := by
  cases ho : l.op <;> simp [writesRegister, ho] at hw hl <;> simp [publishedValue, ho]

theorem executeClear_of_publishes {s : State} {r : RegId} {v : Word} (h : publishes s r v) : executeClear s := by
  obtain ⟨hl, -, hv⟩ := h
  obtain ⟨hw, hload⟩ := op_of_publishedValue hv
  refine ⟨fun live => ⟨?_, hload⟩, ?_⟩
  · rcases hl with ⟨-, hmul⟩ | hm
    · exact hmul
    · simp [((Latch.mulPending_iff _).mp hm).2.1, Latch.live] at live
  · rintro a ⟨-, -, ⟨ho, -⟩ | ⟨-, ⟨ho, -⟩ | ⟨ho, -⟩⟩⟩ <;> simp [writesRegister, ho] at hw

section Execute
variable {m e : State}

/-- After Execute `M` is live exactly behind a live occupant of `E` that is no MUL, or a MUL in its second cycle. -/
theorem ExecuteSpec.live_M_iff (es : ExecuteSpec m e) :
    e.M.live = true ↔ m.E.live = true ∧ m.E.op ≠ .mul ∨ m.E.mulPending = true := by
  rw [Latch.live_iff, Latch.live_iff, Latch.mulPending_iff, es.M, es.busy, es.stalled, es.op]
  by_cases ho : m.E.op = .mul
  · by_cases hs : m.E.stalled = false <;> simp [ho, hs]
  · simp [ho]

theorem ExecuteSpec.writes_M_iff (es : ExecuteSpec m e) (r : RegId) :
    e.M.writes r = true ↔
      (m.E.live = true ∧ m.E.op ≠ .mul ∨ m.E.mulPending = true) ∧ writesRegister m.E.op = true ∧ m.E.rd = r := by
  rw [Latch.writes_iff, es.live_M_iff, es.M, es.op, es.rd]

/-- The value published is the result the occupant carries on into `M`. -/
theorem ExecuteSpec.result_of_publishes (es : ExecuteSpec m e) {r : RegId} {v : Word} (h : publishes m r v) :
    e.E.result = v := by
  obtain ⟨hl, -, hv⟩ := h
  have hbusy : m.E.op = .mul → m.E.busy = true := fun ho => by
    rcases hl with ⟨-, hmul⟩ | hm
    · exact absurd ho hmul
    · exact ((Latch.mulPending_iff _).mp hm).2.1
  obtain ⟨hmovc, hadd, haddi, hsub, hmul, hand, hor, hxor, hldr⟩ := es.result (hl.imp_left And.left)
  cases ho : m.E.op <;> simp only [publishedValue, ho, Option.some.injEq, reduceCtorEq] at hv <;> rw [← hv]
  case movc => exact hmovc ho
  case add => exact hadd ho
  case addi => exact haddi ho
  case sub => exact hsub ho
  case mul => exact hmul ho (hbusy ho)
  case and => exact hand ho
  case or => exact hor ho
  case xor => exact hxor ho
  case ldr => exact hldr ho

/-- The multiplexer gives a published value in the cycle that publishes it. -/
theorem ExecuteSpec.materialized_of_publishes (es : ExecuteSpec m e) {r : RegId} {v : Word} (h : publishes m r v) :
    materialized e (some r) = v := by
  have hresult := es.result_of_publishes h
  obtain ⟨hl, hr, hv⟩ := h
  obtain ⟨hw, hload⟩ := op_of_publishedValue hv
  have hwrites : e.M.writes r = true := (es.writes_M_iff r).mpr ⟨hl, hw, hr⟩
  have hfwd : e.fwd = m.fwd.set r v := by
    rw [es.fwd, if_pos ⟨es.live_M_iff.mpr hl, by rwa [es.M, es.op], by rwa [es.M, es.op]⟩]
    simp only [es.M, es.rd, hr, hresult]
  simp [materialized, es.valid, hwrites, hfwd]

/-- Execute that publishes nothing to `r`, and holds no LOAD, leaves what the multiplexer gives for `r`. -/
theorem ExecuteSpec.materialized_of_leaves (es : ExecuteSpec m e) {r : RegId} (h : executeLeaves m r) :
    materialized e (some r) = materialized m (some r) := by
  obtain ⟨hfree, -, hnone⟩ := h
  have hwrites : e.M.writes r = false := by
    rw [Bool.eq_false_iff, ne_eq, es.writes_M_iff]
    rintro ⟨hl, hw, hr⟩
    have hload : m.E.op ≠ .load := by
      rcases hl with ⟨live, -⟩ | hm
      · exact (hfree live).2
      · simp [((Latch.mulPending_iff _).mp hm).1]
    obtain ⟨v, hv⟩ := exists_publishedValue hw hload
    exact hnone v ⟨hl, hr, hv⟩
  have hfwd : e.fwd[r] = m.fwd[r] := by
    rw [es.fwd]
    split
    · next hp =>
      have hne : e.M.rd ≠ r := fun hr => by simp [(Latch.writes_iff _ _).mpr ⟨hp.1, hp.2.1, hr⟩] at hwrites
      simp [hne, Fin.val_inj]
    · rfl
  simp [materialized, es.valid, hwrites, hfwd, es.x]

/-- Behind a clear Execute, Decode meets no MUL whose second cycle is due, and no load-use hazard. -/
theorem ExecuteSpec.decode_not_held (es : ExecuteSpec m e) (h : executeClear m) :
    e.E.mulPending = false ∧ ∀ i, ¬loadUseHazard e i := by
  obtain ⟨hfree, -⟩ := h
  constructor
  · rw [Latch.mulPending_eq_false_iff, es.op, es.busy, es.stalled]
    rintro ⟨ho, hb, hs⟩
    have live : m.E.live = true := (Latch.live_iff _).mpr ⟨by simpa [ho, hs] using hb, hs, by simp [ho]⟩
    exact (hfree live).1 ho
  · rintro i ⟨r, -, -, hlive, hload, -⟩
    rw [← es.M, es.live_M_iff] at hlive
    rw [es.op] at hload
    rcases hlive with ⟨live, -⟩ | hm
    · exact (hfree live).2 hload
    · simp [hload, Latch.mulPending] at hm

/-- A clear Execute changes `D` only by releasing the stall of a MUL. -/
theorem ExecuteSpec.D_of_clear (es : ExecuteSpec m e) (h : executeClear m) :
    e.D = if m.E.mulPending = true then { m.D with stalled := false } else m.D := by
  have hstraight : transfers m = false ∨ validTarget m.prog.length (transferTarget m) = false := by
    by_contra hc
    simp only [not_or, Bool.not_eq_false] at hc
    exact h.2 _ ((redirectsTo_iff m _).mpr ⟨hc.1, hc.2, rfl⟩)
  obtain ⟨-, -, hD, -⟩ := es.straight hstraight
  exact hD

end Execute

section Back
variable {s w m : State} (ws : WritebackSpec s w) (ms : MemorySpec w m)
include ws ms

theorem back_E : m.E = s.E := ms.E.trans ws.E

theorem back_redirectsTo (a : Word) : redirectsTo m a ↔ redirectsTo s a := by
  rw [redirectsTo, redirectsTo, back_E ws ms, ms.prog, ws.prog, ms.snapshot, ws.snapshot]

theorem back_publishes (r : RegId) (v : Word) : publishes m r v ↔ publishes s r v := by
  rw [publishes, publishes, back_E ws ms]

theorem back_executeLeaves (r : RegId) : executeLeaves m r ↔ executeLeaves s r := by
  simp only [executeLeaves, back_redirectsTo ws ms, back_publishes ws ms, back_E ws ms]

theorem back_executeClear : executeClear m ↔ executeClear s := by
  simp only [executeClear, back_redirectsTo ws ms, back_E ws ms]

/-- A Memory stage that raises no fault writes the table only for a LOAD, which publishes the word it takes. -/
theorem back_fwd (hr : ¬raisesFault w) (r : RegId) :
    m.fwd[r] = if s.M.writes r = true ∧ s.M.op = .load then Memory.read s.dmem s.M.memAddress.toNat else s.fwd[r] := by
  obtain ⟨-, -, -, hfwd, -⟩ := ms.passed hr
  have hword : loadedWord w = Memory.read s.dmem s.M.memAddress.toNat := by rw [loadedWord, ws.M, ws.dmem]
  simp only [hfwd, ws.M, ws.fwd, hword]
  by_cases hp : s.M.live = true ∧ s.M.op = .load
  · by_cases hd : s.M.rd = r
    · subst hd; simp [hp, Latch.writes, writesRegister]
    · simp [hp, hd, Latch.writes, Fin.val_inj]
  · have hn : ¬(s.M.writes r = true ∧ s.M.op = .load) := fun hc => hp ⟨((Latch.writes_iff _ _).mp hc.1).1, hc.2⟩
    simp only [if_neg hp, if_neg hn]

/-- What the multiplexer gives for `r` once Writeback and Memory are done: the word of a LOAD or the table's slot while
`r` is pending, and otherwise the register, just written if `W` retires into it (40_pipeline.md R174, R190). -/
theorem back_materialized (hr : ¬raisesFault w) (r : RegId) :
    materialized m (some r) =
      if (s.valid[r] && (!s.W.writes r || s.M.writes r)) = true then
        if s.M.writes r = true ∧ s.M.op = .load then Memory.read s.dmem s.M.memAddress.toNat else s.fwd[r]
      else if s.W.writes r = true then s.W.result else s.x[r] := by
  rw [materialized, ms.valid, ws.valid, back_fwd ws ms hr, ms.x, ws.x]

/-- Writeback and Memory change `D` only by releasing its stall, and Memory of a live LOAD does release it. -/
theorem back_D (hr : ¬raisesFault w) :
    ∃ b, m.D = { s.D with stalled := b } ∧ (b = true → s.D.stalled = true) ∧
      (s.M.live = true → s.M.op = .load → b = false) := by
  obtain ⟨-, -, -, -, -, -, hD⟩ := ms.passed hr
  have hw : w.D = s.D ∨ w.D = { s.D with stalled := false } := by
    rcases ws.release with ⟨-, -, hD, -⟩ | ⟨-, hD, -⟩
    · exact .inr hD
    · exact .inl hD
  rw [ws.M] at hD
  by_cases hp : s.M.live = true ∧ (s.M.op = .load ∨ s.M.op = .jump)
  · exact ⟨false, by rcases hw with hw | hw <;> rw [hD, if_pos hp, hw], by simp, fun _ _ => rfl⟩
  · rw [if_neg hp] at hD
    have hload : ¬(s.M.live = true ∧ s.M.op = .load) := fun hc => hp ⟨hc.1, .inl hc.2⟩
    rcases hw with hw | hw
    · exact ⟨s.D.stalled, by rw [hD, hw], id, fun h1 h2 => absurd ⟨h1, h2⟩ hload⟩
    · exact ⟨false, by rw [hD, hw], by simp, fun _ _ => rfl⟩

/-- An occupant of `D` that a clear Execute follows is live when Decode comes to it. -/
theorem front_D {e : State} (hr : ¬raisesFault w) (es : ExecuteSpec m e) (hd : decodable s) (hc : executeClear s) :
    e.D = { s.D with stalled := false } := by
  obtain ⟨-, -, hstall⟩ := hd
  obtain ⟨b, hD, hkept, hload⟩ := back_D ws ms hr
  have hED := es.D_of_clear ((back_executeClear ws ms).mpr hc)
  rw [back_E ws ms, hD] at hED
  by_cases hm : s.E.mulPending = true
  · rw [hED, if_pos hm]
  · rw [if_neg hm] at hED
    have hb : b = false := by
      cases b with
      | false => rfl
      | true =>
        rcases hstall (hkept rfl) with h | ⟨h1, h2⟩
        · exact absurd h hm
        · exact hload h1 h2
    rw [hED, hb]

end Back

/-- The consumer receives in each field what the multiplexer gives after Execute. -/
theorem consumer_materialized {s w m e d f : State} (ws : WritebackSpec s w) (ms : MemorySpec w m)
    (hr : ¬raisesFault w) (es : ExecuteSpec m e) (ds : DecodeSpec e d) (fs : FetchSpec d f) (hd : decodable s)
    (hc : executeClear s) :
    f.E.rs1Value = materialized e (sourceRs1 s.D.instr) ∧ f.E.rs2Value = materialized e (sourceRs2 s.D.instr) := by
  have hD := front_D ws ms hr es hd hc
  obtain ⟨hm, hhazard⟩ := es.decode_not_held ((back_executeClear ws ms).mpr hc)
  obtain ⟨hbusy, hop, -⟩ := hd
  have hlive : e.D.live = true := (Latch.live_iff _).mpr (by rw [hD]; exact ⟨hbusy, rfl, hop⟩)
  have hinstr : e.D.instr = s.D.instr := by rw [hD]; rfl
  obtain ⟨hread, hcopy, -⟩ := ds.passes hm hlive (hhazard _)
  rw [hinstr] at hread
  constructor <;> rw [fs.E, hcopy, hread]

/-- A register that Execute leaves alone is read as Writeback and Memory left it. -/
theorem consumer_of_leaves {s w m e : State} (ws : WritebackSpec s w) (ms : MemorySpec w m) (es : ExecuteSpec m e)
    {r : RegId} (h : executeLeaves s r) :
    executeClear s ∧ materialized e (some r) = materialized m (some r) :=
  ⟨executeClear_of_leaves h, es.materialized_of_leaves ((back_executeLeaves ws ms r).mpr h)⟩

/-! ## The obligations -/

/-- Settles O16, from what the two Execute actions of MUL leave. -/
theorem mulTakesTwoExecuteCycles : Obligations.MulTakesTwoExecuteCycles := by
  unfold Obligations.MulTakesTwoExecuteCycles
  rintro rd rs1 rs2 s v hs rfl
  rw [exec_at_execute _ hs, BitVec.ofNat_mul, BitVec.ofNat_toNat, BitVec.ofNat_toNat, BitVec.setWidth_eq,
    BitVec.setWidth_eq, encode, opField_recordOfFields]
  refine ⟨rfl, fun hb => ?_, fun hb => ?_⟩
  · rw [executeAction, hb, ← executeMulFirst_eq]
    rfl
  · rw [executeAction, hb, ← executeMulSecond_eq]
    rfl

/-- Settles O41: after Execute the multiplexer gives the value of the source that applies, and nothing holds Decode. -/
theorem consumerReadsForwardedValue : Obligations.ConsumerReadsForwardedValue := by
  unfold Obligations.ConsumerReadsForwardedValue
  intro s t r v hlive hr hstep hd hsource
  obtain ⟨w, m, e, d, f, ws, ms, hrw, es, ds, fs, rfl⟩ := step_stages hlive hr hstep
  suffices h : executeClear s ∧ materialized e (some r) = v by
    obtain ⟨hc, hv⟩ := h
    obtain ⟨h1, h2⟩ := consumer_materialized ws ms hrw es ds fs hd hc
    exact ⟨fun hsrc => by rw [State.endCycle_E, h1, hsrc, hv], fun hsrc => by rw [State.endCycle_E, h2, hsrc, hv]⟩
  have hback := back_materialized ws ms hrw r
  rcases hsource with hp | ⟨hl, hv, hM, ho, rfl⟩ | ⟨hl, hv, hM, ho, rfl⟩ | ⟨hl, hM, hW, rfl⟩ | ⟨hl, hv, hW, rfl⟩
  case inl =>
    exact ⟨executeClear_of_publishes hp, es.materialized_of_publishes ((back_publishes ws ms r v).mpr hp)⟩
  all_goals
    obtain ⟨hc, he⟩ := consumer_of_leaves ws ms es hl
    refine ⟨hc, he.trans (hback.trans ?_)⟩
  · simp [hv, hM, ho]
  · simp [hv, hM, ho]
  · simp [hM, hW]
  · simp [hv, hW]

/-- Settles O6: in Fetch every instruction does what `advanceFetch` does. -/
theorem fetchedInstructionMovesOn : Obligations.FetchedInstructionMovesOn := by
  unfold Obligations.FetchedInstructionMovesOn
  intro i s hs
  rw [exec_at_fetch i hs]
  rfl

/-- Settles O7, the held case of Fetch. -/
theorem heldFetchPassesFUnchanged : Obligations.HeldFetchPassesFUnchanged := by
  unfold Obligations.HeldFetchPassesFUnchanged
  intro s hF
  rw [fetchStage_spec, if_pos hF]

/-- Settles O9, the first two cases of Decode. -/
theorem decodeHoldsOrPassesBubble : Obligations.DecodeHoldsOrPassesBubble := by
  unfold Obligations.DecodeHoldsOrPassesBubble
  intro s
  obtain ⟨t, ht⟩ := decodeStage_next s
  have ds := decodeStage_spec ht
  constructor
  · intro ho hb hs
    rw [ht, ds.holds ((Latch.mulPending_iff _).mpr ⟨ho, hb, hs⟩)]
  · intro hm hl
    rw [ht, ds.bubble ((Latch.mulPending_eq_false_iff _).mpr hm) ((Latch.live_eq_false_iff _).mpr hl)]

/-- Settles O13: Execute with nothing to run only copies. -/
theorem bubbleExecuteChangesNothing : Obligations.BubbleExecuteChangesNothing := by
  unfold Obligations.BubbleExecuteChangesNothing
  intro s hm hl
  rw [executeStage_of_idle ((Latch.mulPending_eq_false_iff _).mpr hm) ((Latch.live_eq_false_iff _).mpr hl)]
  rfl

/-- Settles O24, by whether `M` is live and whether its occupant is a JUMP. -/
theorem memoryPassesAndReleasesJump : Obligations.MemoryPassesAndReleasesJump := by
  unfold Obligations.MemoryPassesAndReleasesJump
  refine fun s => ⟨fun hl => ?_, fun hs hf => ⟨fun i ha hj => ?_, fun rs1 imm => ?_⟩⟩
  · rw [memoryStage_of_not_live ((Latch.live_eq_false_iff _).mpr hl)]
    rfl
  · rw [exec_at_memory i hs, memoryAction_of_no_access ha hj hf]
    rfl
  · rw [exec_at_memory _ hs, memoryAction, passMemory_of_no_fault _ hf]
    rfl

/-- Settles O27, by whether the instruction has a destination. -/
theorem retirementCommitsAndCounts : Obligations.RetirementCommitsAndCounts := by
  unfold Obligations.RetirementCommitsAndCounts
  refine fun i s hi hs => ⟨fun rd hd => ?_, fun hd => ?_⟩
  · rw [exec_at_writeback i hs, writebackAction_of_writer hd, retireWriter_eq]
  · rw [exec_at_writeback i hs, writebackAction_of_no_destination hi hd]

end Sys2Proof.Machine
end

section
/-! PROOFS. The single-cycle instructions of the ALU (41_alu.md): the code of their encoding, and what Execute leaves
behind. -/

namespace Sys2Proof.Machine

open Sys2Proof.Safety

/-! ## The code of an encoding -/

theorem codeOfOpcode_opcodeOfCode : ∀ c : BitVec 4, codeOfOpcode (opcodeOfCode c) = c := by decide

/-- The operation read from a record has the code of the record's top field. -/
theorem codeOfOpcode_opField (r : Record) : codeOfOpcode (opField r) = r.extractLsb' 44 4 :=
  codeOfOpcode_opcodeOfCode _

/-! ## A single Execute cycle -/

theorem executeResult_eq_published (rd : RegId) (v : Word) (s : State) :
    executeResult rd v s = published s rd v s.z := rfl

theorem executeResultZ_eq_published (rd : RegId) (v : Word) (s : State) :
    executeResultZ rd v s = published s rd v (decide (v = 0)) := rfl

/-! ## Words as exact integers narrowed to 32 bits (41_alu.md R259) -/

theorem ofNat_eq_zero_iff_mod (n : Nat) : BitVec.ofNat 32 n = 0 ↔ n % 2 ^ 32 = 0 := by
  rw [← BitVec.toNat_inj, BitVec.toNat_ofNat, BitVec.ofNat_eq_ofNat, BitVec.toNat_ofNat, Nat.zero_mod]

theorem ofInt_eq_zero_iff_emod (n : Int) : BitVec.ofInt 32 n = 0 ↔ n % 2 ^ 32 = 0 := by
  rw [← BitVec.toNat_inj, BitVec.toNat_ofInt, BitVec.ofNat_eq_ofNat, BitVec.toNat_ofNat, Nat.zero_mod]
  omega

theorem ofInt_toNat (a : Word) : BitVec.ofInt 32 a.toNat = a := by
  rw [BitVec.ofInt_natCast, BitVec.ofNat_toNat, BitVec.setWidth_eq]

theorem add_eq_ofNat (a b : Word) : a + b = BitVec.ofNat 32 (a.toNat + b.toNat) := by
  rw [BitVec.ofNat_add, BitVec.ofNat_toNat, BitVec.ofNat_toNat, BitVec.setWidth_eq, BitVec.setWidth_eq]

theorem add_eq_ofInt (a imm : Word) : a + imm = BitVec.ofInt 32 (a.toNat + imm.toInt) := by
  rw [BitVec.ofInt_add, ofInt_toNat, BitVec.ofInt_toInt]

theorem sub_eq_ofInt (a b : Word) : a - b = BitVec.ofInt 32 ((a.toNat : Int) - b.toNat) := by
  rw [Int.sub_eq_add_neg, BitVec.ofInt_add, BitVec.ofInt_neg, ofInt_toNat, ofInt_toNat, BitVec.sub_eq_add_neg]

/-- A difference of words is 0 exactly when they are the same number, which makes SUB a compare (41_alu.md R253). -/
theorem sub_eq_zero_iff_toNat (a b : Word) : a - b = 0 ↔ a.toNat = b.toNat := by
  rw [BitVec.toNat_inj]
  exact sub_eq_zero

/-! ## The obligations -/

/-- Settles O14: the code is the top field of the encoding, and the one Execute cycle publishes and leaves `Z`. -/
theorem moveAndLogicExecute : Obligations.MoveAndLogicExecute := by
  unfold Obligations.MoveAndLogicExecute
  intro rd rs1 rs2 imm s hs
  simp only [codeOfOpcode_opField, exec_at_execute _ hs, executeAction, executeResult_eq_published, and_true]
  exact ⟨Laws.OpcodeField.movc rd imm, Laws.OpcodeField.and rd rs1 rs2, Laws.OpcodeField.or rd rs1 rs2,
    Laws.OpcodeField.xor rd rs1 rs2⟩

/-- Settles O15: the one Execute cycle publishes the word and whether it is 0, and a sum or difference of words is the
exact integer narrowed. -/
theorem arithmeticExecutes : Obligations.ArithmeticExecutes := by
  unfold Obligations.ArithmeticExecutes
  rintro rd rs1 rs2 imm s a b hs rfl rfl
  simp only [codeOfOpcode_opField, exec_at_execute _ hs, executeAction, executeResultZ_eq_published]
  refine ⟨⟨Laws.OpcodeField.add rd rs1 rs2, ?_⟩, ⟨Laws.OpcodeField.addi rd rs1 imm, ?_⟩,
    Laws.OpcodeField.sub rd rs1 rs2, ?_⟩
  · simp only [add_eq_ofNat, ofNat_eq_zero_iff_mod]
  · simp only [add_eq_ofInt, ofInt_eq_zero_iff_emod]
  · simp only [sub_eq_zero_iff_toNat, ← sub_eq_ofInt]

end Sys2Proof.Machine
end

section
/-! PROOFS. Control-transfer penalties and the fresh core (70_reset_and_hazards.md): how an emptied and stalled front of
the pipeline waits for the target of a redirect, and the state a successful Init builds. -/

namespace Sys2Proof.Machine

open Sys2Proof.Safety

/-! ## The state a successful Init builds -/

theorem eq_freshCore_of_init {b : Bool} {p : List Record} {s : State} (h : init b (.records p) = .ok s) :
    s = freshCore b p := by
  unfold init at h
  cases hf : initFailure p with
  | some e => simp [hf] at h
  | none =>
    simp only [hf, Except.ok.injEq] at h
    exact h.symm

/-! ## Latches that hold no instruction -/

theorem Latch.live_of_nop {l : Latch} (h : l.op = .nop) : l.live = false := by
  simp [Latch.live, h]

theorem Latch.mulPending_of_op {l : Latch} (h : l.op ≠ .mul) : l.mulPending = false := by
  simp [Latch.mulPending, h]

/-! ## What Fetch reads -/

theorem fetchedLatch_not_stalled (s : State) : (fetchedLatch s).stalled = false := by
  cases h : fetchRecord s <;> simp [fetchedLatch, h, latchOfRecord, Latch.cleared]

theorem fetchedLatch_not_busy (s : State) : (fetchedLatch s).busy = false := by
  cases h : fetchRecord s <;> simp [fetchedLatch, h, latchOfRecord, Latch.cleared]

theorem fetchedLatch_of_record {s : State} {r : Record} (ha : aligned s.pc = true)
    (hr : s.prog[idx s.pc]? = some r) : fetchedLatch s = latchOfRecord r s.pc := by
  simp [fetchedLatch, fetchRecord, ha, hr]

/-! ## What releases the stall of Decode before Execute -/

/-- Writeback or Memory of the next cycle releases Decode: a bubble retires behind a resolved branch, or a LOAD or JUMP
is in `M` (40_pipeline.md R223, 42_loadstore.md R280, 43_control.md R306). -/
def releasesDecode (s : State) : Prop :=
  s.W.live = false ∧ s.bp = .resolved ∨ s.M.live = true ∧ (s.M.op = .load ∨ s.M.op = .jump)

section Back
variable {s w m : State} (ws : WritebackSpec s w) (ms : MemorySpec w m) (hr : ¬raisesFault w)
include ws ms hr

theorem back_D_of_releases (h : releasesDecode s) : m.D = { s.D with stalled := false } := by
  obtain ⟨-, -, -, -, -, -, hD⟩ := ms.passed hr
  rw [ws.M] at hD
  rcases ws.release with ⟨-, -, hw, -⟩ | ⟨hkept, hw, -⟩
  · rw [hD, hw, ite_self]
  · have hM : s.M.live = true ∧ (s.M.op = .load ∨ s.M.op = .jump) := by
      refine h.resolve_left fun ⟨hl, hb⟩ => ?_
      rcases hkept with hl' | hb'
      · rw [hl] at hl'; cases hl'
      · exact hb' hb
    rw [hD, if_pos hM, hw]

theorem back_of_not_releases (h : ¬releasesDecode s) : m.D = s.D ∧ m.bp = s.bp := by
  obtain ⟨-, -, -, -, -, -, hD⟩ := ms.passed hr
  obtain ⟨hW, hM⟩ := not_or.mp h
  rw [ws.M, if_neg hM] at hD
  rcases ws.release with ⟨hl, hb, -⟩ | ⟨-, hw, hbp⟩
  · exact absurd ⟨hl, hb⟩ hW
  · exact ⟨hD.trans hw, ms.bp.trans hbp⟩

/-- `W` is live after Memory exactly when `M` was. -/
theorem back_live_W : m.W.live = s.M.live := by
  obtain ⟨-, hW, hM, -⟩ := ms.passed hr
  rw [hW, hM, ws.M]
  split <;> rfl

theorem back_F_busy : m.F.busy = s.F.busy := by
  obtain ⟨-, -, -, -, -, hF, -⟩ := ms.passed hr
  rw [hF, ws.F]
  split <;> rfl

/-- Fetch is not stalled after a Memory stage that releases it, or if it was not stalled before. -/
theorem back_F_not_stalled (h : s.F.stalled = false ∨ s.M.live = true ∧ s.M.op = .jump) : m.F.stalled = false := by
  obtain ⟨-, -, -, -, -, hF, -⟩ := ms.passed hr
  rw [hF, ws.M, ws.F]
  split
  · rfl
  · next hn => exact h.resolve_right hn

end Back

/-! ## Waiting for the target of a redirect -/

/-- A redirect to `a` in a program `p` is being waited for: the pc at the target, `D` empty and stalled, `E` empty. -/
structure AwaitsTarget (p : List Record) (a : Word) (s : State) : Prop where
  target : aligned a = true
  pc : s.pc = a
  prog : s.prog = p
  F : s.F.busy = false
  D : s.D = { Latch.cleared with stalled := true }
  E : s.E.op = .nop

/-- The cycle of a redirect: `D` and `E` are emptied, the transfer goes on into `M`, and the latch ahead of it into `W`
(43_control.md R302). -/
structure RedirectCycle (s : State) (a : Word) (t : State) : Prop where
  awaits : AwaitsTarget s.prog a t
  liveM : t.M.live = true
  opM : t.M.op = s.E.op
  faultM : t.M.fault = s.E.fault
  liveW : t.W.live = s.M.live
  F : t.F.stalled = decide (s.E.op = .jump)
  bp : s.E.op ≠ .jump → t.bp = .resolved

theorem AwaitsTarget.waits {p : List Record} {a : Word} {s : State} (h : AwaitsTarget p a s) :
    waitsForTarget p a s := by
  refine ⟨h.pc, ?_, ?_, Latch.live_of_nop h.E, h.prog⟩
  · rw [h.D]; rfl
  · rw [h.D]

theorem op_of_redirectsTo {s : State} {a : Word} (h : redirectsTo s a) :
    s.E.op = .jump ∨ s.E.op = .bz ∨ s.E.op = .bnz := by
  obtain ⟨-, -, ⟨ho, -⟩ | ⟨-, ⟨ho, -⟩ | ⟨ho, -⟩⟩⟩ := h <;> simp [ho]

theorem aligned_of_redirectsTo {s : State} {a : Word} (h : redirectsTo s a) : aligned a = true := by
  obtain ⟨-, ⟨halign, -⟩, -⟩ := h
  exact decide_eq_true halign

/-- After the flush of a redirect Decode passes a bubble and Fetch moves neither the pc nor `D`. -/
theorem redirectCycle_of_step {s t : State} {a : Word} (hlive : terminated s = false) (hr : ¬raisesFault s)
    (hstep : step s = .next t) (h : redirectsTo s a) : RedirectCycle s a t := by
  obtain ⟨w, m, e, d, f, ws, ms, hrw, es, ds, fs, rfl⟩ := step_stages hlive hr hstep
  have hm : redirectsTo m a := (back_redirectsTo ws ms a).mpr h
  have hmE : m.E = s.E := back_E ws ms
  obtain ⟨htr, hvalid, rfl⟩ := (redirectsTo_iff m a).mp hm
  obtain ⟨hpc, hF, hD, -, hbp⟩ := es.redirected htr hvalid
  have hmul : m.E.op ≠ .mul := by rcases op_of_redirectsTo hm with ho | ho | ho <;> simp [ho]
  have hd := ds.bubble (Latch.mulPending_of_op (by rwa [es.op])) (by rw [hD]; rfl)
  have hDd : d.D = { Latch.cleared with stalled := true } := by rw [hd, ← hD]
  have hFd : d.F = { Latch.cleared with stalled := decide (s.E.op = .jump) } := by rw [ds.F, hF, hmE]
  have hfetch : f.pc = d.pc ∧ f.D = d.D ∧ f.F.busy = false ∧ f.F.stalled = decide (s.E.op = .jump) := by
    by_cases ho : s.E.op = .jump
    · obtain ⟨h1, h2, h3⟩ := fs.held (.inr (by simp [hFd, ho]))
      exact ⟨h3, by rw [h2, hFd, hDd]; simp [ho], by rw [h1, hFd]; rfl, by rw [h1, hFd]⟩
    · obtain ⟨h1, h2, h3⟩ := fs.stall (by rw [hFd]; rfl) (by simp [hFd, ho]) (by rw [hDd])
      exact ⟨h3, h2, by rw [h1, fetchedLatch_not_busy], by simp [h1, fetchedLatch_not_stalled, ho]⟩
  obtain ⟨hpcf, hDf, hbusy, hstalled⟩ := hfetch
  have hM : f.M = e.E := by rw [fs.M, ds.M, es.M]
  have hliveE : e.E.live = true := by
    rw [← es.M, es.live_M_iff]
    exact .inl ⟨hm.1, hmul⟩
  refine ⟨⟨aligned_of_redirectsTo hm, ?_, ?_, hbusy, ?_, ?_⟩, ?_, ?_, ?_, ?_, hstalled, fun ho => ?_⟩
  · rw [State.endCycle_pc, hpcf, ds.pc, hpc]
  · rw [State.endCycle_prog, fs.prog, hd, es.prog, ms.prog, ws.prog]
  · rw [State.endCycle_D, hDf, hDd]
  · rw [State.endCycle_E, fs.E, hd, hD]; rfl
  · rw [State.endCycle_M, hM, hliveE]
  · rw [State.endCycle_M, hM, es.op, hmE]
  · rw [State.endCycle_M, hM, es.deferred, hvalid, hmE]; simp
  · rw [State.endCycle_W, fs.W, ds.W, es.W, back_live_W ws ms hrw]
  · rw [State.endCycle_bp, fs.bp, hd, hbp, hmE, if_neg ho]

/-- What the stages before Fetch leave in a cycle that starts while the target `a` is awaited: a bubble goes from `D`
through `E` into `M`, and `D` is stalled still unless something releases it. -/
structure AwaitedFetch (p : List Record) (a : Word) (s d : State) : Prop where
  pc : d.pc = a
  prog : d.prog = p
  busyF : d.F.busy = false
  stalledF : d.F.stalled = false
  E : d.E = d.D
  liveM : d.M.live = false
  liveW : d.W.live = s.M.live
  released : releasesDecode s → d.D = Latch.cleared
  kept : ¬releasesDecode s → d.D = { Latch.cleared with stalled := true } ∧ d.bp = s.bp

section Wait
variable {p : List Record} {a : Word} {s t : State} (h : AwaitsTarget p a s)
  (hlive : terminated s = false) (hr : ¬raisesFault s) (hstep : step s = .next t)
  (hF : s.F.stalled = false ∨ s.M.live = true ∧ s.M.op = .jump)
include h hlive hr hstep hF

/-- While the target is awaited Execute is idle and Decode passes a bubble, stalled or not. -/
theorem AwaitsTarget.fetch_of_step : ∃ d f, AwaitedFetch p a s d ∧ FetchSpec d f ∧ t = f.endCycle := by
  obtain ⟨w, m, e, d, f, ws, ms, hrw, es, ds, fs, ht⟩ := step_stages hlive hr hstep
  have hop : m.E.op = .nop := by rw [back_E ws ms, h.E]
  have hidle : transfers m = false := by rw [transfers, Latch.live_of_nop hop, Bool.false_and]
  have hDm : m.D.op = .nop := by
    obtain ⟨b, hD, -⟩ := back_D ws ms hrw
    rw [hD, h.D]; rfl
  obtain ⟨hpc, hFe, hDe, -, hbp⟩ := es.straight (.inl hidle)
  rw [Latch.mulPending_of_op (by simp [hop]), if_neg Bool.false_ne_true] at hDe
  rw [Latch.live_of_nop hop, if_neg fun c => Bool.false_ne_true c.1] at hbp
  have hd := ds.bubble (Latch.mulPending_of_op (by simp [es.op, hop])) (Latch.live_of_nop (by rw [hDe, hDm]))
  have hDd : d.D = m.D := by rw [hd, ← hDe]
  refine ⟨d, f, ⟨?_, ?_, ?_, ?_, ?_, ?_, ?_, fun hrel => ?_, fun hrel => ?_⟩, fs, ht⟩
  · rw [ds.pc, hpc, ms.pc, ws.pc, h.pc]
  · rw [hd, es.prog, ms.prog, ws.prog, h.prog]
  · rw [ds.F, hFe, back_F_busy ws ms hrw, h.F]
  · rw [ds.F, hFe, back_F_not_stalled ws ms hrw hF]
  · rw [hd]
  · rw [ds.M, es.M, Latch.live_of_nop (by rw [es.op, hop])]
  · rw [ds.W, es.W, back_live_W ws ms hrw]
  · rw [hDd, back_D_of_releases ws ms hrw hrel, h.D]; rfl
  · obtain ⟨hD, hb⟩ := back_of_not_releases ws ms hrw hrel
    exact ⟨by rw [hDd, hD, h.D], by rw [hd, hbp, hb]⟩

/-- Once Decode is released the target is fetched into it. -/
theorem AwaitsTarget.targetInDecode_of_step (hrel : releasesDecode s) : targetInDecode p a t := by
  obtain ⟨d, f, hd, fs, rfl⟩ := h.fetch_of_step hlive hr hstep hF
  have hD := hd.released hrel
  obtain ⟨h1, h2, h3⟩ := fs.go hd.busyF hd.stalledF (by rw [hD]; rfl)
  refine ⟨?_, ?_, ?_, ?_, ?_, fun r hrec => ?_⟩
  · rw [State.endCycle_pc, h3, hd.pc]
  · rw [State.endCycle_F, h1, fetchedLatch_not_stalled]
  · rw [State.endCycle_D, h2, fetchedLatch_not_stalled]
  · rw [State.endCycle_D, State.endCycle_F, h2, h1]
  · rw [State.endCycle_E, fs.E, hd.E, hD]; rfl
  · rw [State.endCycle_D, h2, fetchedLatch_of_record (by rw [hd.pc, h.target]) (by rw [hd.prog, hd.pc, hrec]), hd.pc]

/-- A cycle that releases nothing leaves the target awaited, with the older instructions one stage on. -/
theorem AwaitsTarget.awaits_of_step (hrel : ¬releasesDecode s) :
    AwaitsTarget p a t ∧ t.F.stalled = false ∧ t.M.live = false ∧ t.W.live = s.M.live ∧ t.bp = s.bp := by
  obtain ⟨d, f, hd, fs, rfl⟩ := h.fetch_of_step hlive hr hstep hF
  obtain ⟨hD, hbp⟩ := hd.kept hrel
  obtain ⟨h1, h2, h3⟩ := fs.stall hd.busyF hd.stalledF (by rw [hD])
  refine ⟨⟨h.target, ?_, ?_, ?_, ?_, ?_⟩, ?_, ?_, ?_, ?_⟩
  · rw [State.endCycle_pc, h3, hd.pc]
  · rw [State.endCycle_prog, fs.prog, hd.prog]
  · rw [State.endCycle_F, h1, fetchedLatch_not_busy]
  · rw [State.endCycle_D, h2, hD]
  · rw [State.endCycle_E, fs.E, hd.E, hD]; rfl
  · rw [State.endCycle_F, h1, fetchedLatch_not_stalled]
  · rw [State.endCycle_M, fs.M, hd.liveM]
  · rw [State.endCycle_W, fs.W, hd.liveW]
  · rw [State.endCycle_bp, fs.bp, hbp]

end Wait

/-! ## The two penalties -/

/-- A control transfer in `M` without a deferred fault accesses no data, so its cycle raises none. -/
theorem not_raisesFault_of_transfer {s t : State} {a : Word} (h : redirectsTo s a) (hop : t.M.op = s.E.op)
    (hf : t.M.fault = false) : ¬raisesFault t := by
  rintro ⟨-, hfault | ⟨hdata, -⟩⟩
  · rw [hf] at hfault; cases hfault
  · rw [hop] at hdata
    rcases op_of_redirectsTo h with ho | ho | ho <;> simp [ho] at hdata

theorem not_raisesFault_of_not_live {s : State} (h : s.M.live = false) : ¬raisesFault s := by
  rintro ⟨hl, -⟩
  rw [h] at hl; cases hl

/-- With no LOAD or JUMP in `M`, a resolved branch's stall is released exactly when a bubble retires. -/
theorem releasesDecode_iff_of_resolved {s : State} (hM : s.M.live = true → s.M.op ≠ .load ∧ s.M.op ≠ .jump)
    (hb : s.bp = .resolved) : releasesDecode s ↔ s.W.live = false := by
  refine ⟨fun h => h.elim And.left fun ⟨hl, ho⟩ => ?_, fun h => .inl ⟨h, hb⟩⟩
  obtain ⟨hload, hjump⟩ := hM hl
  exact absurd ho (not_or.mpr ⟨hload, hjump⟩)

/-- Behind a resolved branch in `W`, with a bubble in `M`, the target is awaited for one cycle more, and reaches Decode
in the cycle in which the bubble retires. -/
theorem AwaitsTarget.two_more_cycles {p : List Record} {a : Word} {u v w : State} (h : AwaitsTarget p a u)
    (hF : u.F.stalled = false) (hM : u.M.live = false) (hW : u.W.live = true) (hb : u.bp = .resolved)
    (hlu : terminated u = false) (hv : step u = .next v) :
    waitsForTarget p a v ∧ (terminated v = false → step v = .next w → targetInDecode p a w) := by
  have hrel : ¬releasesDecode u := by
    rw [releasesDecode_iff_of_resolved (by simp [hM]) hb]
    simp [hW]
  obtain ⟨hav, hFv, hMv, hWv, hbv⟩ := h.awaits_of_step hlu (not_raisesFault_of_not_live hM) hv (.inl hF) hrel
  refine ⟨hav.waits, fun hlv hw => ?_⟩
  exact hav.targetInDecode_of_step hlv (not_raisesFault_of_not_live hMv) hw (.inl hFv)
    (.inl ⟨hWv.trans hM, hbv.trans hb⟩)

/-! ## The obligations -/

/-- Settles O45, cycle by cycle: the JUMP in `M` releases Decode at once, a resolved branch only when the first bubble
retires, which is the latch ahead of the branch or, if that was live, the bubble behind the branch. -/
theorem targetReachesDecodeAfterPenalty : Obligations.TargetReachesDecodeAfterPenalty := by
  unfold Obligations.TargetReachesDecodeAfterPenalty
  intro s t u a hlive hr hstep hfault hredirect
  have c := redirectCycle_of_step hlive hr hstep hredirect
  have hrt := not_raisesFault_of_transfer hredirect c.opM (c.faultM.trans hfault)
  refine ⟨c.awaits.waits, c.liveM, fun hj => ⟨by simp [c.F, hj], fun hlt hu => ?_⟩, fun hj => ?_⟩
  · have hop := c.opM.trans hj
    exact c.awaits.targetInDecode_of_step hlt hrt hu (.inr ⟨c.liveM, hop⟩) (.inr ⟨c.liveM, .inr hop⟩)
  · have hF : t.F.stalled = false := by simp [c.F, hj]
    have hb := c.bp hj
    have hload : s.E.op ≠ .load := by rcases op_of_redirectsTo hredirect with ho | ho | ho <;> simp [ho]
    have hrel : releasesDecode t ↔ s.M.live = false := by
      rw [releasesDecode_iff_of_resolved (fun _ => by rw [c.opM]; exact ⟨hload, hj⟩) hb, c.liveW]
    refine ⟨hF, hb, fun hlt hu => ⟨fun hM => ?_, fun hM => ?_⟩⟩
    · exact c.awaits.targetInDecode_of_step hlt hrt hu (.inl hF) (hrel.mpr hM)
    · obtain ⟨hau, hFu, hMu, hWu, hbu⟩ := c.awaits.awaits_of_step hlt hrt hu (.inl hF) (by simp [hrel, hM])
      exact ⟨hau.waits, fun v w => hau.two_more_cycles hFu hMu (hWu.trans c.liveM) (hbu.trans hb)⟩

/-- Settles O54: a core that Init answers is the fresh core, whose fields are the reset values. -/
theorem initBuildsFreshCore : Obligations.InitBuildsFreshCore := by
  unfold Obligations.InitBuildsFreshCore
  intro b p s h
  obtain rfl := eq_freshCore_of_init h
  refine ⟨rfl, fun r => ?_, fun a => rfl, rfl, rfl, fun l hl => ?_, rfl, rfl, rfl, rfl, rfl, rfl, rfl⟩
  · simp [freshCore, State.reset]
  · simpa [freshCore, State.reset, Latch.warmUp] using hl

end Sys2Proof.Machine
end

section
/-! PROOFS. The encoding (30_encoding.md): a record as the weighted sum of its five fields, and what the decoder reads
back from it. -/

namespace Sys2Proof.Machine

/-! ## A record as a number -/

/-- Juxtaposed bit vectors do not overlap, so their numbers add. -/
theorem toNat_append_eq_add {n m : Nat} (a : BitVec n) (b : BitVec m) :
    (a ++ b).toNat = a.toNat * 2 ^ m + b.toNat := by
  rw [BitVec.toNat_append, ← Nat.shiftLeft_add_eq_or_of_lt b.isLt, Nat.shiftLeft_eq]

theorem toNat_ofNat_regId (r : RegId) : (BitVec.ofNat 4 r.val).toNat = r.val := by
  rw [BitVec.toNat_ofNat, Nat.mod_eq_of_lt r.isLt]

theorem toNat_recordOfFields (op : Opcode) (rd rs1 rs2 : RegId) (imm : Word) :
    (recordOfFields op rd rs1 rs2 imm).toNat =
      (codeOfOpcode op).toNat * 2 ^ 44 + rd.val * 2 ^ 40 + rs1.val * 2 ^ 36 + rs2.val * 2 ^ 32 + imm.toNat := by
  simp only [recordOfFields, toNat_append_eq_add, toNat_ofNat_regId]
  omega

theorem toNat_extractLsb'_eq_div (r : Record) (start len : Nat) :
    (r.extractLsb' start len).toNat = r.toNat / 2 ^ start % 2 ^ len := by
  rw [BitVec.extractLsb'_toNat, Nat.shiftRight_eq_div_pow]

/-! ## The fields of a record built from fields -/

@[simp] theorem rdField_recordOfFields (op : Opcode) (rd rs1 rs2 : RegId) (imm : Word) :
    rdField (recordOfFields op rd rs1 rs2 imm) = rd := by
  apply Fin.ext
  simp only [rdField, regOfField, toNat_extractLsb'_eq_div, toNat_recordOfFields]
  omega

@[simp] theorem rs1Field_recordOfFields (op : Opcode) (rd rs1 rs2 : RegId) (imm : Word) :
    rs1Field (recordOfFields op rd rs1 rs2 imm) = rs1 := by
  apply Fin.ext
  simp only [rs1Field, regOfField, toNat_extractLsb'_eq_div, toNat_recordOfFields]
  omega

@[simp] theorem rs2Field_recordOfFields (op : Opcode) (rd rs1 rs2 : RegId) (imm : Word) :
    rs2Field (recordOfFields op rd rs1 rs2 imm) = rs2 := by
  apply Fin.ext
  simp only [rs2Field, regOfField, toNat_extractLsb'_eq_div, toNat_recordOfFields]
  omega

@[simp] theorem immField_recordOfFields (op : Opcode) (rd rs1 rs2 : RegId) (imm : Word) :
    immField (recordOfFields op rd rs1 rs2 imm) = imm := by
  apply BitVec.eq_of_toNat_eq
  rw [immField, toNat_extractLsb'_eq_div, toNat_recordOfFields]
  omega

theorem decode_recordOfFields (op : Opcode) (rd rs1 rs2 : RegId) (imm : Word) :
    decode (recordOfFields op rd rs1 rs2 imm) = instrOfFields op rd rs1 rs2 imm := by
  simp only [decode, opField_recordOfFields, rdField_recordOfFields, rs1Field_recordOfFields,
    rs2Field_recordOfFields, immField_recordOfFields]

theorem decode_encode (i : Instr) : decode (encode i) = i := by
  cases i <;> rw [encode, decode_recordOfFields] <;> rfl

/-- No bit of a record lies outside its five fields. -/
theorem recordOfFields_of_fields (r : Record) :
    recordOfFields (opField r) (rdField r) (rs1Field r) (rs2Field r) (immField r) = r := by
  apply BitVec.eq_of_toNat_eq
  simp only [toNat_recordOfFields, codeOfOpcode_opField, rdField, rs1Field, rs2Field, immField, regOfField,
    toNat_extractLsb'_eq_div]
  omega

/-! ## The obligations -/

/-- Settles O1: every arm of `encode` places the operands where the decoder's arm for that operation reads them. -/
theorem decodeEncodeRoundTrip : Obligations.DecodeEncodeRoundTrip := by
  unfold Obligations.DecodeEncodeRoundTrip
  exact decode_encode

/-- Settles O2, on the record's number. -/
theorem recordIsItsFields : Obligations.RecordIsItsFields := by
  unfold Obligations.RecordIsItsFields
  exact ⟨recordOfFields_of_fields, toNat_recordOfFields⟩

/-- Settles O3: the decoder is `instrOfFields` of the fields, which drops those an operation does not use. -/
theorem unusedFieldsIgnored : Obligations.UnusedFieldsIgnored := by
  unfold Obligations.UnusedFieldsIgnored
  intro rd rd' rs1 rs1' rs2 rs2' imm imm'
  simp [decode_recordOfFields, instrOfFields]

/-- Settles O4, by decoding the eight words. -/
theorem sampleWordsDecode : Obligations.SampleWordsDecode := by
  unfold Obligations.SampleWordsDecode
  decide

end Sys2Proof.Machine
end

section
/-! PROOFS. The four invariants of a step: Data Memory canonical (20_memory.md), the pc aligned (10_state.md R47), the
validity table exact (70_reset_and_hazards.md R395) and every stall tied to a source (10_state.md R55). -/

namespace Sys2Proof.Machine

open Sys2Proof.Safety

/-! ## A step as its stages -/

/-- What every stage procedure and the end of a cycle keep, a step keeps. -/
theorem step_keeps {P : State → Prop} (hw : ∀ {s t}, WritebackSpec s t → P s → P t)
    (hm : ∀ {s t}, MemorySpec s t → P s → P t) (he : ∀ {s t}, ExecuteSpec s t → P s → P t)
    (hd : ∀ {s t}, DecodeSpec s t → P s → P t) (hf : ∀ {s t}, FetchSpec s t → P s → P t)
    (hend : ∀ {s}, P s → P s.endCycle) {s t : State} (h : P s) (hs : step s = .next t) : P t := by
  cases step_cases hs with
  | stopped _ same => rwa [same]
  | faulted w m _ hw' hm' _ ht =>
    rw [ht]
    exact hend (hm (memoryStage_spec hm') (hw (writebackStage_spec hw') h))
  | completed w m e d f _ hw' hm' _ he' hd' hf' ht =>
    rw [ht]
    exact hend (hf (fetchStage_fields hf') (hd (decodeStage_spec hd') (he (executeStage_spec he')
      (hm (memoryStage_spec hm') (hw (writebackStage_spec hw') h)))))

/-- The cycle of a fault does Writeback and Memory only (40_pipeline.md R172, 60_exceptions.md R333). -/
theorem step_raised {s t : State} (hlive : terminated s = false) (hr : raisesFault s) (h : step s = .next t) :
    ∃ w m, WritebackSpec s w ∧ MemorySpec w m ∧ raisesFault w ∧ t = m.endCycle := by
  have hv : s.fault.valid = false := ((not_terminated_iff s).mp hlive).2.2
  cases step_cases h with
  | stopped done _ => rw [hlive] at done; cases done
  | faulted w m _ hw hm _ ht =>
    have ws := writebackStage_spec hw
    exact ⟨w, m, ws, memoryStage_spec hm, (raisesFault_writeback ws).mpr hr, ht⟩
  | completed w m _ _ _ _ hw hm hf _ _ _ _ =>
    have hm := (memory_fault_iff (writebackStage_spec hw) (memoryStage_spec hm) hv).mpr hr
    rw [hf] at hm; cases hm

theorem step_of_terminated {s t : State} (hs : terminated s = true) (h : step s = .next t) : t = s := by
  rw [step, if_pos hs] at h
  exact (Host.Outcome.next.inj h).symm

/-! ## Data Memory -/

/-- Memory writes only a cell in range: any other address raises the fault (42_loadstore.md R284). -/
theorem MemorySpec.canonical {s t : State} (ms : MemorySpec s t) (h : memoryCanonical s) : memoryCanonical t := by
  unfold memoryCanonical at h ⊢
  by_cases hr : raisesFault s
  · rwa [(ms.raised hr).2.2.1]
  · obtain ⟨-, -, -, -, hmem, -⟩ := ms.passed hr
    rw [hmem]
    split
    · next hst =>
      obtain ⟨hl, ho⟩ := hst
      refine Memory.wf_write h (not_le.mp fun hle => hr ⟨hl, .inr ⟨.inr (.inr ho), hle⟩⟩) _
    · exact h

/-! ## The pc -/

theorem pcAligned_of_aligned {a : Word} (h : aligned a = true) :
    ∃ k : Nat, a = Config.pcBase + BitVec.ofNat 32 (Config.insnWidth * k) := by
  have hmod : offsetOf a % Config.insnWidth = 0 := of_decide_eq_true h
  refine ⟨idx a, ?_⟩
  rw [idx, Nat.mul_div_cancel' (Nat.dvd_of_mod_eq_zero hmod), offsetOf, BitVec.ofNat_toNat, BitVec.setWidth_eq]
  exact (add_sub_cancel _ _).symm

/-- Execute moves the pc only to a target that R303 accepts, which is aligned. -/
theorem ExecuteSpec.keeps_pcAligned {s t : State} (es : ExecuteSpec s t) (h : pcAligned s) : pcAligned t := by
  unfold pcAligned at h ⊢
  by_cases hred : transfers s = true ∧ validTarget s.prog.length (transferTarget s) = true
  · obtain ⟨htr, hvalid⟩ := hred
    rw [(es.redirected htr hvalid).1]
    exact pcAligned_of_aligned (Bool.and_eq_true_iff.mp hvalid).1
  · rw [(es.straight (by simpa [imp_iff_not_or] using hred)).1]
    exact h

/-- Fetch keeps the pc or moves it on by one record. -/
theorem FetchSpec.pc_cases {s t : State} (fs : FetchSpec s t) :
    t.pc = s.pc ∨ t.pc = s.pc + BitVec.ofNat 32 Config.insnWidth := by
  by_cases hF : s.F.busy = true ∨ s.F.stalled = true
  · exact .inl (fs.held hF).2.2
  · simp only [not_or, Bool.not_eq_true] at hF
    cases hD : s.D.stalled with
    | true => exact .inl (fs.stall hF.1 hF.2 hD).2.2
    | false => exact .inr (fs.go hF.1 hF.2 hD).2.2

theorem FetchSpec.keeps_pcAligned {s t : State} (fs : FetchSpec s t) (h : pcAligned s) : pcAligned t := by
  obtain ⟨k, hk⟩ := h
  rcases fs.pc_cases with hpc | hpc
  · exact ⟨k, hpc.trans hk⟩
  · exact ⟨k + 1, by rw [hpc, hk, Nat.mul_succ, BitVec.ofNat_add, BitVec.add_assoc]⟩

/-! ## The validity table -/

/-- The stages behind Writeback and Memory leave the pending flags of exactly the writers in `M` and `W`: Writeback
releases what `W` held unless `M` holds it too, Memory moves `M` to `W`, and Execute marks what it puts in `M`. -/
theorem pendingExact_of_stages {s w m e d f : State} (ws : WritebackSpec s w) (ms : MemorySpec w m)
    (hr : ¬raisesFault w) (es : ExecuteSpec m e) (ds : DecodeSpec e d) (fs : FetchSpec d f) (h : pendingExact s) :
    pendingExact f := by
  intro r
  obtain ⟨-, hW, hM, -⟩ := ms.passed hr
  have hWr : m.W.writes r = s.M.writes r := by
    rw [hW, hM, ws.M]
    split <;> rfl
  have hs : s.valid[r] = (s.M.writes r || s.W.writes r) := by
    rw [Bool.eq_iff_iff, Bool.or_eq_true]
    exact h r
  have hw : w.valid[r] = s.M.writes r := by
    rw [ws.valid, hs]
    cases s.M.writes r <;> cases s.W.writes r <;> rfl
  rw [fs.valid, ds.valid, es.valid, ms.valid, hw, fs.M, ds.M, fs.W, ds.W, es.W, hWr, Bool.or_eq_true, or_comm]

/-! ## Stalls -/

/-- A redirect, or an Execute stage that moves neither the pc nor `F`. -/
theorem ExecuteSpec.redirected_or_straight {m e : State} (es : ExecuteSpec m e) :
    (transfers m = true ∧ validTarget m.prog.length (transferTarget m) = true ∧
      e.F = { Latch.cleared with stalled := decide (m.E.op = .jump) } ∧
      e.D = { Latch.cleared with stalled := true } ∧ e.bp = if m.E.op = .jump then m.bp else .resolved) ∨
    (e.F = m.F ∧ e.D = (if m.E.mulPending = true then { m.D with stalled := false } else m.D) ∧
      e.bp = if m.E.live = true ∧ m.E.isBranch = true then .none else m.bp) := by
  by_cases hred : transfers m = true ∧ validTarget m.prog.length (transferTarget m) = true
  · obtain ⟨htr, hvalid⟩ := hred
    obtain ⟨-, hF, hD, -, hbp⟩ := es.redirected htr hvalid
    exact .inl ⟨htr, hvalid, hF, hD, hbp⟩
  · obtain ⟨-, hF, hD, -, hbp⟩ := es.straight (by simpa [imp_iff_not_or] using hred)
    exact .inr ⟨hF, hD, hbp⟩

/-- The four cases of Decode (40_pipeline.md R180 to R187). -/
theorem DecodeSpec.cases {s t : State} (ds : DecodeSpec s t) :
    s.E.mulPending = true ∧ t = { s with D := { s.D with stalled := true }, stage := .decode } ∨
    s.E.mulPending = false ∧ s.D.live = false ∧ t = { s with E := s.D, stage := .decode } ∨
    s.E.mulPending = false ∧ s.D.live = true ∧ loadUseHazard s s.D.instr ∧
      t = { s with D := { s.D with stalled := true }, E := { s.D with stalled := true }, stage := .decode } ∨
    s.E.mulPending = false ∧ s.D.live = true ∧ ¬loadUseHazard s s.D.instr ∧
      t.D = { s.D with
        rs1Value := materialized s (sourceRs1 s.D.instr), rs2Value := materialized s (sourceRs2 s.D.instr) } ∧
      t.E = t.D := by
  cases hm : s.E.mulPending with
  | true => exact .inl ⟨rfl, ds.holds hm⟩
  | false =>
    cases hl : s.D.live with
    | false => exact .inr (.inl ⟨rfl, rfl, ds.bubble hm hl⟩)
    | true =>
      by_cases hz : loadUseHazard s s.D.instr
      · exact .inr (.inr (.inl ⟨rfl, rfl, hz, ds.hazard hm hl hz⟩))
      · obtain ⟨hD, hE, -⟩ := ds.passes hm hl hz
        exact .inr (.inr (.inr ⟨rfl, rfl, hz, hD, hE⟩))

/-- `F` and `D` carry no deferred fault and `F` no busy mark (10_state.md R53, R54). -/
def frontUnmarked (s : State) : Prop := s.F.fault = false ∧ s.D.fault = false ∧ s.F.busy = false

theorem back_frontUnmarked {s w m : State} (ws : WritebackSpec s w) (ms : MemorySpec w m) (hr : ¬raisesFault w)
    (h : frontUnmarked s) : frontUnmarked m := by
  obtain ⟨hF, hD, hbusy⟩ := h
  obtain ⟨b, hmD, -⟩ := back_D ws ms hr
  refine ⟨?_, by rw [hmD]; exact hD, by rw [back_F_busy ws ms hr, hbusy]⟩
  obtain ⟨-, -, -, -, -, hmF, -⟩ := ms.passed hr
  rw [hmF, ws.F]
  split <;> exact hF

theorem ExecuteSpec.keeps_frontUnmarked {m e : State} (es : ExecuteSpec m e) (h : frontUnmarked m) :
    frontUnmarked e := by
  obtain ⟨hF, hD, hbusy⟩ := h
  rcases es.redirected_or_straight with ⟨-, -, heF, heD, -⟩ | ⟨heF, heD, -⟩
  · exact ⟨by rw [heF]; rfl, by rw [heD]; rfl, by rw [heF]; rfl⟩
  · exact ⟨by rw [heF, hF], by rw [heD]; split <;> exact hD, by rw [heF, hbusy]⟩

theorem DecodeSpec.keeps_frontUnmarked {e d : State} (ds : DecodeSpec e d) (h : frontUnmarked e) :
    frontUnmarked d := by
  obtain ⟨hF, hD, hbusy⟩ := h
  refine ⟨by rw [ds.F, hF], ?_, by rw [ds.F, hbusy]⟩
  rcases ds.cases with ⟨-, rfl⟩ | ⟨-, -, rfl⟩ | ⟨-, -, -, rfl⟩ | ⟨-, -, -, hdD, -⟩
  case inr.inr.inr => rw [hdD]; exact hD
  all_goals exact hD

theorem fetchedLatch_no_fault (s : State) : (fetchedLatch s).fault = false := by
  cases h : fetchRecord s <;> simp [fetchedLatch, h, latchOfRecord, Latch.cleared]

/-- A Fetch that is not held reads into `F`. -/
theorem FetchSpec.F_of_free {d f : State} (fs : FetchSpec d f) (hb : d.F.busy = false) (hs : d.F.stalled = false) :
    f.F = fetchedLatch d := by
  cases hD : d.D.stalled with
  | true => exact (fs.stall hb hs hD).1
  | false => exact (fs.go hb hs hD).1

theorem FetchSpec.keeps_frontUnmarked {d f : State} (fs : FetchSpec d f) (h : frontUnmarked d) :
    frontUnmarked f := by
  obtain ⟨hF, hD, hbusy⟩ := h
  cases hs : d.F.stalled with
  | true =>
    obtain ⟨hfF, hfD, -⟩ := fs.held (.inr hs)
    exact ⟨by rw [hfF, hF], by rw [hfD, hF], by rw [hfF, hbusy]⟩
  | false =>
    cases hds : d.D.stalled with
    | true =>
      obtain ⟨hfF, hfD, -⟩ := fs.stall hbusy hs hds
      exact ⟨by rw [hfF, fetchedLatch_no_fault], by rw [hfD, hD], by rw [hfF, fetchedLatch_not_busy]⟩
    | false =>
      obtain ⟨hfF, hfD, -⟩ := fs.go hbusy hs hds
      exact ⟨by rw [hfF, fetchedLatch_no_fault], by rw [hfD, fetchedLatch_no_fault],
        by rw [hfF, fetchedLatch_not_busy]⟩

/-- A deferred fault goes with its control transfer into `M`: what Decode leaves in `E` is unmarked. -/
theorem deferred_not_kept_in_E {m e d : State} (es : ExecuteSpec m e) (ds : DecodeSpec e d)
    (hE : m.E.fault = false) (h : frontUnmarked e) : d.E.fault = false := by
  obtain ⟨-, hD, -⟩ := h
  rcases ds.cases with ⟨hm, rfl⟩ | ⟨-, -, rfl⟩ | ⟨-, -, -, rfl⟩ | ⟨-, -, -, hdD, hdE⟩
  · have hmul : m.E.op = .mul := by rw [← es.op]; exact ((Latch.mulPending_iff _).mp hm).1
    simp [es.deferred, hE, transfers, hmul]
  · exact hD
  · exact hD
  · rw [hdE, hdD]; exact hD

section Stalls
variable {s w m e d f : State} (ws : WritebackSpec s w) (ms : MemorySpec w m) (hr : ¬raisesFault w)
  (es : ExecuteSpec m e) (ds : DecodeSpec e d) (fs : FetchSpec d f) (h : stallsHaveSources s)
include ws ms hr h

/-- The JUMP that stalls Fetch releases it in Memory (43_control.md R306). -/
theorem fetchStall_released : m.F.stalled = false := by
  refine back_F_not_stalled ws ms hr ?_
  cases hs : s.F.stalled with
  | false => exact .inl rfl
  | true =>
    obtain ⟨hl, ho, -⟩ := h.fetchStall hs
    exact .inr ⟨hl, ho⟩

/-- A stall of Decode that outlives Writeback and Memory is that of a MUL whose second cycle is due, or of a resolved
branch behind which an instruction retires. -/
theorem decodeStall_kept (hD : m.D.stalled = true) :
    m.E.mulPending = true ∨ m.E.stalled = true ∧ m.bp = .resolved := by
  have hrel : ¬releasesDecode s := fun hrel => by simp [back_D_of_releases ws ms hr hrel] at hD
  obtain ⟨hmD, hbp⟩ := back_of_not_releases ws ms hr hrel
  rw [back_E ws ms, hbp]
  rw [hmD] at hD
  refine (h.decodeStall hD).imp_right fun ⟨hE, hsource⟩ => ⟨hE, ?_⟩
  rcases hsource with ⟨hl, ho⟩ | ⟨hl, ho, -⟩ | hbp
  · exact absurd (.inr ⟨hl, .inl ho⟩) hrel
  · exact absurd (.inr ⟨hl, .inr ho⟩) hrel
  · exact hbp

include es

/-- After Execute, `F` is stalled only by a JUMP that has just redirected. -/
theorem fetchStall_after_execute (hF : e.F.stalled = true) :
    e.M.live = true ∧ e.M.op = .jump ∧ e.M.fault = false := by
  rcases es.redirected_or_straight with ⟨htr, hvalid, heF, -, -⟩ | ⟨heF, -, -⟩
  · have ho : m.E.op = .jump := by simpa [heF] using hF
    have hl : m.E.live = true := by simp only [transfers, Bool.and_eq_true] at htr; exact htr.1
    have hE : m.E.fault = false := by rw [back_E ws ms]; exact h.noFault.2.2
    exact ⟨es.live_M_iff.mpr (.inl ⟨hl, by simp [ho]⟩), by rw [es.M, es.op, ho],
      by simp [es.M, es.deferred, hE, hvalid]⟩
  · rw [heF, fetchStall_released ws ms hr h] at hF
    cases hF

/-- After Execute, `D` is stalled only by a redirect of this cycle, whose transfer is in `M`, or by an earlier taken
branch. -/
theorem decodeStall_after_execute (hD : e.D.stalled = true) :
    e.M.live = true ∧ e.M.op = .jump ∧ e.M.fault = false ∨ e.bp = .resolved := by
  rcases es.redirected_or_straight with ⟨htr, hvalid, heF, -, hbp⟩ | ⟨-, heD, hbp⟩
  · by_cases ho : m.E.op = .jump
    · exact .inl (fetchStall_after_execute ws ms hr es h (by simp [heF, ho]))
    · exact .inr (by rw [hbp, if_neg ho])
  · by_cases hm : m.E.mulPending = true
    · simp [heD, hm] at hD
    · rw [heD, if_neg hm] at hD
      obtain ⟨hE, hb⟩ := (decodeStall_kept ws ms hr h hD).resolve_left hm
      exact .inr (by rw [hbp, hb, Latch.live, hE]; simp)

include ds

/-- A redirect that stalls Fetch has emptied and stalled Decode too (43_control.md R302). -/
theorem decodeStall_of_fetchStall (hF : d.F.stalled = true) : d.D.stalled = true := by
  rw [ds.F] at hF
  have hD : e.D.stalled = true := by
    rcases es.redirected_or_straight with ⟨-, -, -, heD, -⟩ | ⟨heF, -, -⟩
    · rw [heD]
    · rw [heF, fetchStall_released ws ms hr h] at hF
      cases hF
  rcases ds.cases with ⟨-, rfl⟩ | ⟨-, -, rfl⟩ | ⟨-, -, -, rfl⟩ | ⟨-, hl, -⟩
  · rfl
  · exact hD
  · rfl
  · rw [Latch.live, hD] at hl
    simp at hl

/-- After Decode every stall of `D` has its source, as it will at the end of the cycle. -/
theorem decodeStall_after_decode (hD : d.D.stalled = true) :
    d.E.mulPending = true ∨ d.E.stalled = true ∧
      (d.M.live = true ∧ d.M.op = .load ∨ d.M.live = true ∧ d.M.op = .jump ∧ d.M.fault = false ∨
        d.bp = .resolved) := by
  have hsource := decodeStall_after_execute ws ms hr es h
  rcases ds.cases with ⟨hm, rfl⟩ | ⟨-, -, rfl⟩ | ⟨-, -, hz, rfl⟩ | ⟨-, hl, -, hdD, -⟩
  · exact .inl hm
  · exact .inr ⟨hD, .inr (hsource hD)⟩
  · obtain ⟨r, -, -, hlive, ho, -⟩ := hz
    exact .inr ⟨rfl, .inl ⟨by rw [es.M]; exact hlive, by rw [es.M]; exact ho⟩⟩
  · rw [hdD] at hD
    rw [((Latch.live_iff _).mp hl).2.1] at hD
    cases hD

include fs

/-- A cycle that raises no fault ends with every stall tied to a source. -/
theorem stallsHaveSources_of_stages : stallsHaveSources f := by
  obtain ⟨hF, hD, hE⟩ := h.noFault
  have he := es.keeps_frontUnmarked (back_frontUnmarked ws ms hr ⟨hF, hD, h.fetchFree⟩)
  have hd := ds.keeps_frontUnmarked he
  obtain ⟨hfF, hfD, hbusy⟩ := fs.keeps_frontUnmarked hd
  have hEf : f.E.fault = false := by
    rw [fs.E]
    exact deferred_not_kept_in_E es ds (by rw [back_E ws ms, hE]) he
  refine ⟨⟨hfF, hfD, hEf⟩, hbusy, fun hs => ?_, fun hs => ?_⟩
  · have hdF : d.F.stalled = true := by
      by_contra hn
      rw [fs.F_of_free hd.2.2 (by simpa using hn), fetchedLatch_not_stalled] at hs
      cases hs
    rw [fs.M, ds.M]
    exact fetchStall_after_execute ws ms hr es h (by rw [← ds.F, hdF])
  · have hdD : d.D.stalled = true := by
      cases hdF : d.F.stalled with
      | true => exact decodeStall_of_fetchStall ws ms hr es ds h hdF
      | false =>
        by_contra hn
        rw [(fs.go hd.2.2 hdF (by simpa using hn)).2.1, fetchedLatch_not_stalled] at hs
        cases hs
    rw [fs.E, fs.M, fs.bp]
    exact decodeStall_after_decode ws ms hr es ds h hdD

end Stalls

/-- In the cycle of a fault Writeback may release a branch stall, and nothing else of the pipeline moves. -/
theorem stallsHaveSources_of_raised {s w m : State} (ws : WritebackSpec s w) (ms : MemorySpec w m)
    (hr : raisesFault w) (h : stallsHaveSources s) : stallsHaveSources m := by
  obtain ⟨-, -, -, hF, hD, hM, -⟩ := ms.raised hr
  rw [ws.F] at hF
  rw [ws.M] at hM
  obtain ⟨hfF, hfD, hfE⟩ := h.noFault
  have hE := back_E ws ms
  rcases ws.release with ⟨-, -, hw, -⟩ | ⟨-, hw, hbp⟩
  · rw [hw] at hD
    exact ⟨⟨by rw [hF, hfF], by rw [hD]; exact hfD, by rw [hE, hfE]⟩, by rw [hF, h.fetchFree],
      by rw [hF, hM]; exact h.fetchStall, by simp [hD]⟩
  · rw [hw] at hD
    exact ⟨⟨by rw [hF, hfF], by rw [hD, hfD], by rw [hE, hfE]⟩, by rw [hF, h.fetchFree],
      by rw [hF, hM]; exact h.fetchStall, by rw [hD, hE, hM, ms.bp, hbp]; exact h.decodeStall⟩

theorem stallsHaveSources_endCycle {s : State} (h : stallsHaveSources s) : stallsHaveSources s.endCycle :=
  ⟨h.noFault, h.fetchFree, h.fetchStall, h.decodeStall⟩

/-! ## The obligations -/

/-- Settles O47: only Memory writes Data Memory, and only a cell in range. -/
theorem stepKeepsMemoryCanonical : Obligations.StepKeepsMemoryCanonical := by
  unfold Obligations.StepKeepsMemoryCanonical
  intro s t h hs
  refine step_keeps (P := memoryCanonical) (fun ws => ?_) (fun ms => ms.canonical) (fun es => ?_) (fun ds => ?_)
    (fun fs => ?_) id h hs <;> unfold memoryCanonical
  · rw [ws.dmem]; exact id
  · rw [es.dmem]; exact id
  · rw [ds.dmem]; exact id
  · rw [fs.dmem]; exact id

/-- Settles O48: Execute sets the pc to aligned targets only, and Fetch moves it on by whole records. -/
theorem stepKeepsPcAligned : Obligations.StepKeepsPcAligned := by
  unfold Obligations.StepKeepsPcAligned
  intro s t h hs
  refine step_keeps (P := pcAligned) (fun ws => ?_) (fun ms => ?_) (fun es => es.keeps_pcAligned) (fun ds => ?_)
    (fun fs => fs.keeps_pcAligned) id h hs <;> unfold pcAligned
  · rw [ws.pc]; exact id
  · rw [ms.pc]; exact id
  · rw [ds.pc]; exact id

/-- Settles O49: a cycle without fault moves the writer in `M` to `W` and the flags with it. -/
theorem stepKeepsPendingExact : Obligations.StepKeepsPendingExact := by
  unfold Obligations.StepKeepsPendingExact
  intro s t h hs hf
  cases hlive : terminated s with
  | true => rwa [step_of_terminated hlive hs]
  | false =>
    by_cases hr : raisesFault s
    · obtain ⟨w, m, -, ms, hrw, rfl⟩ := step_raised hlive hr hs
      rw [State.endCycle_fault, (ms.raised hrw).1] at hf
      cases hf
    · obtain ⟨w, m, e, d, f, ws, ms, hrw, es, ds, fs, rfl⟩ := step_stages hlive hr hs
      have hpending : pendingExact f := pendingExact_of_stages ws ms hrw es ds fs h
      exact hpending

/-- Settles O50, by whether the cycle raises a fault. -/
theorem stepKeepsStallSources : Obligations.StepKeepsStallSources := by
  unfold Obligations.StepKeepsStallSources
  intro s t h hs
  cases hlive : terminated s with
  | true => rwa [step_of_terminated hlive hs]
  | false =>
    by_cases hr : raisesFault s
    · obtain ⟨w, m, ws, ms, hrw, rfl⟩ := step_raised hlive hr hs
      exact stallsHaveSources_endCycle (stallsHaveSources_of_raised ws ms hrw h)
    · obtain ⟨w, m, e, d, f, ws, ms, hrw, es, ds, fs, rfl⟩ := step_stages hlive hr hs
      exact stallsHaveSources_endCycle (stallsHaveSources_of_stages ws ms hrw es ds fs h)

/-- Settles O51: after reset and after Init no latch holds an instruction, and none is stalled or marked. -/
theorem freshCoreMeetsInvariants : Obligations.FreshCoreMeetsInvariants := by
  unfold Obligations.FreshCoreMeetsInvariants
  intro s hs
  have hfields : s.dmem = [] ∧ s.pc = Config.pcBase ∧ s.valid = Vector.replicate 16 false ∧ s.F = Latch.cleared ∧
      s.D = Latch.warmUp ∧ s.E = Latch.warmUp ∧ s.M = Latch.warmUp ∧ s.W = Latch.warmUp := by
    rcases hs with rfl | ⟨b, p, rfl⟩ <;> exact ⟨rfl, rfl, rfl, rfl, rfl, rfl, rfl, rfl⟩
  obtain ⟨hmem, hpc, hvalid, hF, hD, hE, hM, hW⟩ := hfields
  refine ⟨?_, ⟨0, ?_⟩, fun r => ?_, ⟨?_, ?_, ?_, ?_⟩⟩
  · rw [memoryCanonical, hmem]; exact Memory.wf_nil
  · rw [hpc]; rfl
  · simp [hvalid, hM, hW, Latch.writes, Latch.live, Latch.warmUp, Latch.cleared]
  · rw [hF, hD, hE]; exact ⟨rfl, rfl, rfl⟩
  · rw [hF]; rfl
  · simp [hF, Latch.cleared]
  · simp [hD, Latch.warmUp, Latch.cleared]

end Sys2Proof.Machine
end

section
/-! PROOFS. The instructions stage by stage: what Fetch reads, what Decode does with and without a hazard, what loads,
stores, control transfers, HALT and NOP do in Execute, Memory and Writeback, and the faults Memory raises. -/

namespace Sys2Proof.Machine

open Sys2Proof.Safety

/-! ## Fetch -/

theorem fetchRecord_eq_some_iff (s : State) (r : Record) :
    fetchRecord s = some r ↔ aligned s.pc = true ∧ s.prog[idx s.pc]? = some r := by
  simp [fetchRecord]

theorem fetchRecord_eq_none_iff (s : State) :
    fetchRecord s = none ↔ aligned s.pc = false ∨ s.prog.length ≤ idx s.pc := by
  cases ha : aligned s.pc <;> simp [fetchRecord, ha]

/-! ## Decode -/

theorem decodeWith_of_hazard {i : Instr} {s : State} (action : State → State) (h : loadUseHazard s i) :
    decodeWith (sourceRs1 i) (sourceRs2 i) action s = leaveDecode (s.stallD true) := by
  rw [decodeWith, if_pos ((hazard_iff s i).mpr h)]

theorem decodeWith_of_no_hazard {i : Instr} {s : State} (action : State → State) (h : ¬loadUseHazard s i) :
    decodeWith (sourceRs1 i) (sourceRs2 i) action s =
      leaveDecode (action (s.setD { s.D with
        rs1Value := materialized s (sourceRs1 i), rs2Value := materialized s (sourceRs2 i) })) := by
  rw [decodeWith, if_neg (mt (hazard_iff s i).mp h), operandOrZero_eq, operandOrZero_eq]

/-- An instruction without sources meets no hazard. -/
theorem no_hazard_of_no_sources {i : Instr} (s : State) (h1 : sourceRs1 i = none) (h2 : sourceRs2 i = none) :
    ¬loadUseHazard s i := by
  rintro ⟨r, hr | hr, -⟩
  · rw [h1] at hr; cases hr
  · rw [h2] at hr; cases hr

theorem armWithParameter_eq (s : State) : armWithParameter s =
    { s with bp := .armed, snapshot := if s.snapshotOnBnz = true then s.z else s.snapshot } := by
  unfold armWithParameter
  split <;> rfl

theorem exec_nop_at_decode {s : State} (h : s.stage = .decode) : exec .nop s = .next (leaveDecode s) := by
  simp [exec, execNop, h]

/-! ## The HALT rewrite (43_control.md R301) -/

theorem length_rewriteAfter (p : List Record) (h : Nat) : (rewriteAfter p h).length = p.length := by
  simp [rewriteAfter]
  omega

theorem getElem?_rewriteAfter_of_le (p : List Record) {h k : Nat} (hk : k ≤ h) : (rewriteAfter p h)[k]? = p[k]? := by
  rcases Nat.lt_or_ge k p.length with hl | hl
  · rw [rewriteAfter, List.getElem?_append_left (by simp; omega), List.getElem?_take_of_lt (by omega)]
  · rw [List.getElem?_eq_none hl, List.getElem?_eq_none (by rwa [length_rewriteAfter])]

theorem getElem?_rewriteAfter_of_lt (p : List Record) {h k : Nat} (hk : h < k) (hl : k < p.length) :
    (rewriteAfter p h)[k]? = some nopRecord := by
  rw [rewriteAfter, List.getElem?_append_right (by simp; omega), List.getElem?_replicate_of_lt (by simp; omega)]

/-! ## Memory -/

theorem passMemory_of_fault (action : State → State) {s : State} (hf : s.M.fault = true) :
    passMemory action s = raise .controlTarget s.M.pc s.M.result s := by
  rw [passMemory, if_pos hf]

theorem accessMemory_of_fault (kind : FaultKind) (action : State → State) {s : State} (hf : s.M.fault = true) :
    accessMemory kind action s = raise .controlTarget s.M.pc s.M.result s := by
  rw [accessMemory, hf, Bool.true_or, if_pos rfl, passMemory_of_fault action hf]

theorem accessMemory_of_inRange (kind : FaultKind) (action : State → State) {s : State} (hf : s.M.fault = false)
    (ha : s.M.memAddress.toNat < Config.dmemWords) : accessMemory kind action s = leaveMemory (action s) := by
  rw [accessMemory, (inRange_iff _).mpr ha, Bool.or_true, if_pos rfl, passMemory_of_no_fault action hf]

theorem accessMemory_of_out_of_range (kind : FaultKind) (action : State → State) {s : State} (hf : s.M.fault = false)
    (ha : Config.dmemWords ≤ s.M.memAddress.toNat) :
    accessMemory kind action s = raise kind s.M.pc s.M.memAddress s := by
  have hr : inRange s.M.memAddress = false := by
    rw [← Bool.not_eq_true, inRange_iff]
    exact Nat.not_lt.mpr ha
  rw [accessMemory, hf, hr, Bool.or_false, if_neg Bool.false_ne_true]

/-- A deferred fault is raised whatever the instruction is (40_pipeline.md R211). -/
theorem memoryAction_of_fault {i : Instr} {s : State} (hi : i ≠ .nop) (hf : s.M.fault = true) :
    memoryAction i s = raise .controlTarget s.M.pc s.M.result s := by
  cases i with
  | nop => exact absurd rfl hi
  | load | ldr | store => exact accessMemory_of_fault _ _ hf
  | _ => exact passMemory_of_fault _ hf

/-! ## Writeback -/

theorem writebackStage_of_not_live {s : State} (hl : s.W.live = false) :
    writebackStage s = .next (bubbleWriteback (s.atStage .writeback)) := by
  simp [writebackStage, hl]

/-! ## Execute of a control transfer -/

theorem correction_eq (target self : Word) : correction target self = indexOf target - indexOf self - 1 := rfl

theorem executeJump_of_accepted {t : Word} {s : State} (h : targetAccepted s.prog.length t) :
    executeJump t s = { s with
      pc := t
      F := { Latch.cleared with stalled := true }
      D := { Latch.cleared with stalled := true }
      E := { s.E with result := t }
      M := { s.E with result := t }
      insCompleted := s.insCompleted + (indexOf t - indexOf s.E.pc - 1) } := by
  rw [executeJump, if_pos ((validTarget_iff _ _).mpr h)]
  rfl

theorem executeJump_of_rejected {t : Word} {s : State} (h : ¬targetAccepted s.prog.length t) :
    executeJump t s =
      { s with E := { s.E with result := t, fault := true }, M := { s.E with result := t, fault := true } } := by
  rw [executeJump, if_neg (mt (validTarget_iff _ _).mp h)]
  rfl

theorem clearedLatch_not_stalled : { Latch.cleared with stalled := false } = Latch.cleared := rfl

theorem executeBranch_not_taken (t : Word) (s : State) :
    executeBranch false t s =
      { s with E := { s.E with result := t }, M := { s.E with result := t }, bp := .none } := rfl

theorem executeBranch_of_accepted {t : Word} {s : State} (h : targetAccepted s.prog.length t) :
    executeBranch true t s = { s with
      pc := t
      F := Latch.cleared
      D := { Latch.cleared with stalled := true }
      E := { s.E with result := t }
      M := { s.E with result := t }
      bp := .resolved
      insCompleted := s.insCompleted + (indexOf t - indexOf s.E.pc - 1) } := by
  rw [executeBranch, if_pos rfl, if_pos ((validTarget_iff _ _).mpr h)]
  apply State.ext <;> simp [leaveExecute, redirect, setTarget, clearedLatch_not_stalled, correction_eq]

theorem executeBranch_of_rejected {t : Word} {s : State} (h : ¬targetAccepted s.prog.length t) :
    executeBranch true t s = { s with
      E := { s.E with result := t, fault := true }
      M := { s.E with result := t, fault := true }
      bp := .none } := by
  rw [executeBranch, if_pos rfl, if_neg (mt (validTarget_iff _ _).mp h)]
  rfl

/-! ## The obligations: Fetch and Decode -/

/-- Settles O8, by whether the pc names a record. -/
theorem fetchReadsRecordAtPc : Obligations.FetchReadsRecordAtPc := by
  unfold Obligations.FetchReadsRecordAtPc
  intro s l hb hs hrecord hnone
  have hl : l = fetchedLatch s := by
    cases h : fetchRecord s with
    | none => rw [hnone ((fetchRecord_eq_none_iff s).mp h), fetchedLatch, h]
    | some r =>
      obtain ⟨ha, hr⟩ := (fetchRecord_eq_some_iff s r).mp h
      rw [hrecord r ha hr, fetchedLatch, h]
      rfl
  rw [fetchStage_spec, if_neg (by simp [hb, hs]), hl]

/-- Settles O10: without a hazard Decode is the operand read, the opcode's own action and the copy. -/
theorem decodeReadsActsAndPasses : Obligations.DecodeReadsActsAndPasses := by
  unfold Obligations.DecodeReadsActsAndPasses
  intro i s hi hs hz
  rw [exec_at_decode hs hi, decodeWith_of_no_hazard _ hz]
  cases i with
  | nop => exact absurd rfl hi
  | bnz imm =>
    rw [decodeAction, armWithParameter_eq]
    rfl
  | _ => rfl

/-- Settles O11: with a hazard Decode stalls and passes the stalled latch, whatever the action. -/
theorem loadUseHazardStalls : Obligations.LoadUseHazardStalls := by
  unfold Obligations.LoadUseHazardStalls
  intro i s hs hz
  have hi : i ≠ .nop := by
    rintro rfl
    exact no_hazard_of_no_sources s rfl rfl hz
  rw [exec_at_decode hs hi, decodeWith_of_hazard _ hz]
  rfl

/-- Settles O12: HALT's Decode action is the rewrite, and a record read beyond it is the NOP record. -/
theorem haltRewritesLaterRecords : Obligations.HaltRewritesLaterRecords := by
  unfold Obligations.HaltRewritesLaterRecords
  intro s hs
  have hz := no_hazard_of_no_sources (i := .halt) s rfl rfl
  refine ⟨_, (exec_at_decode hs (by simp)).trans (congrArg _ (decodeWith_of_no_hazard _ hz)), ?_⟩
  refine ⟨length_rewriteAfter _ _, fun k hk => getElem?_rewriteAfter_of_le _ hk,
    fun k hk hl => getElem?_rewriteAfter_of_lt _ hk hl, fun a r ha hr => ?_⟩
  obtain ⟨-, hrec⟩ := (fetchRecord_eq_some_iff _ _).mp hr
  obtain ⟨hlen, -⟩ := List.getElem?_eq_some_iff.mp hrec
  have hnop := getElem?_rewriteAfter_of_lt s.prog ha (lt_of_lt_of_eq hlen (length_rewriteAfter _ _))
  rw [Option.some.inj (hrec.symm.trans hnop)]
  exact decode_encode .nop

/-! ## The obligations: Execute, Memory and Writeback -/

/-- Settles O17: with the address in range Memory is the action of LOAD and the copy. -/
theorem loadComputesAddressThenReads : Obligations.LoadComputesAddressThenReads := by
  unfold Obligations.LoadComputesAddressThenReads
  intro rd rs1 imm s a v
  refine ⟨(codeOfOpcode_opField _).trans (Laws.OpcodeField.load rd rs1 imm), ?_, ?_⟩
  · rintro hs rfl
    rw [exec_at_execute _ hs]
    rfl
  · rintro hs hf ha rfl
    rw [exec_at_memory _ hs, memoryAction, accessMemory_of_inRange _ _ hf ha]
    rfl

/-- Settles O18: as for LOAD, with the address published in Execute and the word unpublished in Memory. -/
theorem ldrPublishesAddressThenReads : Obligations.LdrPublishesAddressThenReads := by
  unfold Obligations.LdrPublishesAddressThenReads
  intro rd rs1 rs2 s a
  refine ⟨(codeOfOpcode_opField _).trans (Laws.OpcodeField.ldr rd rs1 rs2), ?_, fun hs hf ha => ?_⟩
  · rintro hs rfl
    rw [exec_at_execute _ hs]
    rfl
  · rw [exec_at_memory _ hs, memoryAction, accessMemory_of_inRange _ _ hf ha]
    rfl

/-- A STORE in range leaves in Memory the memory with its one word written. -/
theorem exec_store_at_memory (rs1 rs2 : RegId) (imm : Word) {s : State} (hs : s.stage = .memory)
    (hf : s.M.fault = false) (ha : s.M.memAddress.toNat < Config.dmemWords) :
    exec (.store rs1 rs2 imm) s =
      .next { s with W := s.M, dmem := Memory.write s.dmem s.M.memAddress.toNat s.M.rs1Value } := by
  rw [exec_at_memory _ hs, memoryAction, accessMemory_of_inRange _ _ hf ha]
  rfl

/-- Settles O19, by reading after the write. -/
theorem storeWritesOneWord : Obligations.StoreWritesOneWord := by
  unfold Obligations.StoreWritesOneWord
  intro rs1 rs2 imm s a
  refine ⟨(codeOfOpcode_opField _).trans (Laws.OpcodeField.store rs1 rs2 imm), ?_, fun hs hm hf ha => ?_⟩
  · rintro hs rfl
    rw [exec_at_execute _ hs]
    rfl
  · refine ⟨_, exec_store_at_memory rs1 rs2 imm hs hf ha, ?_, fun b hb => ?_⟩
    · rw [Memory.read_write _ hm, if_pos rfl]
    · rw [Memory.read_write _ hm, if_neg hb]

/-- Settles O46: a load in range takes the word at its address, which the STORE has written. -/
theorem loadAfterStoreReadsStoredWord : Obligations.LoadAfterStoreReadsStoredWord := by
  unfold Obligations.LoadAfterStoreReadsStoredWord
  intro s t u v i rs1 rs2 imm hm hs hf ha ht hu hmem huf hua hi hv
  rw [exec_store_at_memory rs1 rs2 imm hs hf ha] at ht
  obtain rfl := Host.Outcome.next.inj ht
  have hword : Memory.read u.dmem u.M.memAddress.toNat = s.M.rs1Value := by
    rw [hmem, hua, Memory.read_write _ hm, if_pos rfl]
  rw [exec_at_memory _ hu] at hv
  obtain rfl := Host.Outcome.next.inj hv
  rw [← hua] at ha
  rcases hi with ⟨rd, r, off, rfl⟩ | ⟨rd, r, r', rfl⟩ <;>
    rw [memoryAction, accessMemory_of_inRange _ _ huf ha] <;> exact hword

/-- Settles O20, by whether the target is accepted. -/
theorem jumpRedirectsOrMarksFault : Obligations.JumpRedirectsOrMarksFault := by
  unfold Obligations.JumpRedirectsOrMarksFault
  rintro rs1 imm s t hs rfl
  rw [exec_at_execute _ hs, executeAction]
  exact ⟨fun h => by rw [executeJump_of_accepted h], fun h => by rw [executeJump_of_rejected h]⟩

/-- BZ in Execute is taken on a set snapshot, BNZ on a cleared one (43_control.md R310). -/
theorem executeAction_of_branch {i : Instr} {imm : Word} {s : State} (hi : i = .bz imm ∨ i = .bnz imm) :
    executeAction i s = executeBranch (decide (s.snapshot = decide (i = .bz imm))) (s.E.pc + imm) s := by
  rcases hi with rfl | rfl <;> simp [executeAction]

/-- Settles O21, by whether the branch is taken and whether its target is accepted. -/
theorem branchesResolveOnSnapshot : Obligations.BranchesResolveOnSnapshot := by
  unfold Obligations.BranchesResolveOnSnapshot
  rintro i imm s t hs rfl hi
  rw [exec_at_execute _ hs, executeAction_of_branch hi]
  refine ⟨fun h => ?_, fun h ha => ?_, fun h ha => ?_⟩
  · have hne : decide (s.snapshot = decide (i = .bz imm)) = false := by rcases hi with rfl | rfl <;> simp [h]
    rw [hne, executeBranch_not_taken]
  · rw [decide_eq_true h, executeBranch_of_accepted ha]
  · rw [decide_eq_true h, executeBranch_of_rejected ha]

/-- Settles O22, stage by stage: HALT accesses no data and has no destination. -/
theorem haltOnlySetsHaltedAtRetirement : Obligations.HaltOnlySetsHaltedAtRetirement := by
  unfold Obligations.HaltOnlySetsHaltedAtRetirement
  refine fun s => ⟨(codeOfOpcode_opField _).trans Laws.OpcodeField.halt, fun hs => ?_, fun hs hf => ?_, fun hs => ?_⟩
  · rw [exec_at_execute _ hs]
    rfl
  · rw [exec_at_memory _ hs, memoryAction_of_no_access rfl (by simp) hf]
    rfl
  · rw [exec_at_writeback _ hs]
    rfl

/-- Settles O23: only a resolved branch gives the bubble anything to do, and that in Writeback. -/
theorem nopIsABubbleEverywhere : Obligations.NopIsABubbleEverywhere := by
  unfold Obligations.NopIsABubbleEverywhere
  refine ⟨fun l => Latch.live_of_nop, fun s => ⟨fun hs => ?_, fun hs => ?_, fun hs => ?_, fun hs hb => ?_⟩⟩
  · rw [exec_nop_at_decode hs]
    rfl
  · rw [exec_at_execute _ hs]
    rfl
  · rw [exec_at_memory _ hs]
    rfl
  · rw [exec_at_writeback _ hs]
    exact congrArg _ (if_neg hb)

/-- Settles O25: the deferred fault is tested before any action. -/
theorem deferredControlFaultIsRaised : Obligations.DeferredControlFaultIsRaised := by
  unfold Obligations.DeferredControlFaultIsRaised
  intro i s hi hs hf
  rw [exec_at_memory i hs, memoryAction_of_fault hi hf]
  rfl

/-- Settles O26, for the three instructions that access data. -/
theorem outOfRangeAccessIsRaised : Obligations.OutOfRangeAccessIsRaised := by
  unfold Obligations.OutOfRangeAccessIsRaised
  intro i s hi hs hf ha
  rw [exec_at_memory i hs]
  cases i with
  | load | ldr | store =>
    rw [memoryAction, accessMemory_of_out_of_range _ _ hf ha]
    rfl
  | _ => cases hi

/-- Settles O28, by whether a resolved branch waits. -/
theorem emptyWritebackReleasesBranchStall : Obligations.EmptyWritebackReleasesBranchStall := by
  unfold Obligations.EmptyWritebackReleasesBranchStall
  intro s hl
  rw [writebackStage_of_not_live ((Latch.live_eq_false_iff _).mpr hl)]
  exact ⟨fun hb => congrArg _ (if_pos hb), fun hb => congrArg _ (if_neg hb)⟩

end Sys2Proof.Machine
end

section
/-! PROOFS. The cycle (40_pipeline.md R172): the stage procedures run their occupants, a step runs the stages in order,
and what a whole cycle does to the clock, the registers, the count, the pc, the Program Store and, when it raises the
fault, to the rest. -/

namespace Sys2Proof.Machine

open Sys2Proof.Safety

/-! ## A stage procedure with an occupant -/

theorem writebackStage_of_live {s : State} (hl : s.W.live = true) :
    writebackStage s = exec s.W.instr (s.atStage .writeback) := by
  simp [writebackStage, hl]

theorem memoryStage_of_live {s : State} (hl : s.M.live = true) :
    memoryStage s = exec s.M.instr (s.atStage .memory) := by
  simp [memoryStage, hl]

theorem executeStage_of_occupant {s : State} (hl : (s.E.mulPending || s.E.live) = true) :
    executeStage s = exec s.E.instr (s.atStage .execute) := by
  simp only [executeStage, State.atStage_E, hl, if_true]

theorem decodeStage_of_live {s : State} (hm : s.E.mulPending = false) (hl : s.D.live = true) :
    decodeStage s = exec s.D.instr (s.atStage .decode) := by
  simp [decodeStage, hm, hl]

theorem fetchStage_of_record {s : State} {r : Record} (hb : s.F.busy = false) (hs : s.F.stalled = false)
    (hr : fetchRecord s = some r) :
    fetchStage s = exec (decode r) ((s.atStage .fetch).setF (latchOfRecord r s.pc)) := by
  have hr' : fetchRecord (s.atStage .fetch) = some r := hr
  simp [fetchStage, hb, hs, hr']

/-! ## A step from its stages -/

theorem step_of_fault {s w m : State} (hlive : terminated s = false) (hw : writebackStage s = .next w)
    (hm : memoryStage w = .next m) (hf : m.fault.valid = true) : step s = .next m.endCycle := by
  simp [step, hlive, cycle, hw, hm, hf]

theorem step_of_stages {s w m e d f : State} (hlive : terminated s = false) (hw : writebackStage s = .next w)
    (hm : memoryStage w = .next m) (hf : m.fault.valid = false) (he : executeStage m = .next e)
    (hd : decodeStage e = .next d) (hff : fetchStage d = .next f) : step s = .next f.endCycle := by
  simp [step, hlive, cycle, frontStages, hw, hm, hf, he, hd, hff]

theorem fetchStage_of_free {s : State} (hb : s.F.busy = false) (hs : s.F.stalled = false)
    (hd : s.D.stalled = false) :
    fetchStage s = .next { s with
      F := fetchedLatch s
      D := fetchedLatch s
      pc := s.pc + BitVec.ofNat 32 Config.insnWidth
      stage := .fetch } := by
  rw [fetchStage_spec, if_neg (by simp [hb, hs]), if_neg (by simp [hd])]

theorem fetchStage_next (s : State) : ∃ t, fetchStage s = .next t := ⟨_, fetchStage_spec s⟩

theorem step_next (s : State) : ∃ t, step s = .next t := by
  cases hlive : terminated s with
  | true => exact ⟨s, by rw [step, if_pos hlive]⟩
  | false =>
    obtain ⟨w, hw⟩ := writebackStage_next s
    obtain ⟨m, hm⟩ := memoryStage_next w
    cases hf : m.fault.valid with
    | true => exact ⟨_, step_of_fault hlive hw hm hf⟩
    | false =>
      obtain ⟨e, he⟩ := executeStage_next m
      obtain ⟨d, hd⟩ := decodeStage_next e
      obtain ⟨f, hff⟩ := fetchStage_next d
      exact ⟨_, step_of_stages hlive hw hm hf he hd hff⟩

/-! ## What no stage of a cycle moves but its last act -/

theorem back_clock {s w m : State} (ws : WritebackSpec s w) (ms : MemorySpec w m) : m.clock = s.clock :=
  ms.clock.trans ws.clock

theorem front_clock {m e d f : State} (es : ExecuteSpec m e) (ds : DecodeSpec e d) (fs : FetchSpec d f) :
    f.clock = m.clock := by
  rw [fs.clock, ds.clock, es.clock]

theorem step_clock {s t : State} (hlive : terminated s = false) (hs : step s = .next t) :
    t.clock = s.clock + 1 := by
  by_cases hr : raisesFault s
  · obtain ⟨w, m, ws, ms, -, rfl⟩ := step_raised hlive hr hs
    rw [State.endCycle_clock, back_clock ws ms]
  · obtain ⟨w, m, e, d, f, ws, ms, -, es, ds, fs, rfl⟩ := step_stages hlive hr hs
    rw [State.endCycle_clock, front_clock es ds fs, back_clock ws ms]

/-- Behind Writeback no stage writes a register or `halted` (10_state.md R41, R62). -/
theorem step_x_halted {s t : State} (hlive : terminated s = false) (hs : step s = .next t) :
    ∃ w, WritebackSpec s w ∧ t.x = w.x ∧ t.halted = w.halted := by
  by_cases hr : raisesFault s
  · obtain ⟨w, m, ws, ms, -, rfl⟩ := step_raised hlive hr hs
    exact ⟨w, ws, ms.x, ms.halted⟩
  · obtain ⟨w, m, e, d, f, ws, ms, -, es, ds, fs, rfl⟩ := step_stages hlive hr hs
    exact ⟨w, ws, by rw [State.endCycle_x, fs.x, ds.x, es.x, ms.x],
      by rw [State.endCycle_halted, fs.halted, ds.halted, es.halted, ms.halted]⟩

/-! ## Redirects -/

theorem straight_of_no_redirect {s : State} (h : ∀ a, ¬redirectsTo s a) :
    transfers s = false ∨ validTarget s.prog.length (transferTarget s) = false := by
  by_contra hc
  simp only [not_or, Bool.not_eq_false] at hc
  exact h _ ((redirectsTo_iff s _).mpr ⟨hc.1, hc.2, rfl⟩)

/-- A redirect adds the correction of R304 to the count. -/
theorem ExecuteSpec.insCompleted_of_redirect {m e : State} (es : ExecuteSpec m e) {a : Word} (h : redirectsTo m a) :
    e.insCompleted = m.insCompleted + (indexOf a - indexOf m.E.pc - 1) := by
  obtain ⟨htr, hvalid, rfl⟩ := (redirectsTo_iff m a).mp h
  obtain ⟨-, -, -, hcount, -⟩ := es.redirected htr hvalid
  rw [hcount, correction_eq]

theorem back_insCompleted {s w m : State} (ws : WritebackSpec s w) (ms : MemorySpec w m) :
    m.insCompleted = s.insCompleted + if s.W.live = true then 1 else 0 :=
  ms.insCompleted.trans ws.insCompleted

theorem front_insCompleted {e d f : State} (ds : DecodeSpec e d) (fs : FetchSpec d f) :
    f.insCompleted = e.insCompleted :=
  fs.insCompleted.trans ds.insCompleted

/-! ## The Program Store -/

/-- An occupant that Decode runs is the one `D` held when the cycle began. -/
theorem D_of_live_after_execute {s w m e : State} (ws : WritebackSpec s w) (ms : MemorySpec w m)
    (hr : ¬raisesFault w) (es : ExecuteSpec m e) (hl : e.D.live = true) : ∃ b, e.D = { s.D with stalled := b } := by
  obtain ⟨b, hmD, -⟩ := back_D ws ms hr
  rcases es.redirected_or_straight with ⟨-, -, -, heD, -⟩ | ⟨-, heD, -⟩
  · rw [heD] at hl
    cases hl
  · rw [heD, hmD]
    split
    · exact ⟨false, rfl⟩
    · exact ⟨b, rfl⟩

theorem DecodeSpec.prog_cases {e d : State} (ds : DecodeSpec e d) :
    d.prog = e.prog ∨ e.D.live = true ∧ e.D.op = .halt ∧ d.prog = rewriteAfter e.prog (idx e.D.pc) := by
  rcases ds.cases with ⟨-, rfl⟩ | ⟨-, -, rfl⟩ | ⟨-, -, -, rfl⟩ | ⟨hm, hl, hz, -⟩
  case inr.inr.inr =>
    obtain ⟨-, -, hprog, -⟩ := ds.passes hm hl hz
    by_cases ho : e.D.op = .halt
    · exact .inr ⟨hl, ho, by rw [hprog, if_pos ho]⟩
    · exact .inl (by rw [hprog, if_neg ho])
  all_goals exact .inl rfl

theorem DecodeSpec.length_prog {e d : State} (ds : DecodeSpec e d) : d.prog.length = e.prog.length := by
  rcases ds.prog_cases with h | ⟨-, -, h⟩
  · rw [h]
  · rw [h, length_rewriteAfter]

theorem step_length_prog {s t : State} (hs : step s = .next t) : t.prog.length = s.prog.length := by
  refine step_keeps (P := fun u => u.prog.length = s.prog.length) (fun ws h => ?_) (fun ms h => ?_) (fun es h => ?_)
    (fun ds h => ?_) (fun fs h => ?_) id rfl hs
  · rw [ws.prog, h]
  · rw [ms.prog, h]
  · rw [es.prog, h]
  · rw [ds.length_prog, h]
  · rw [fs.prog, h]

theorem step_prog {s t : State} (hs : step s = .next t) :
    t.prog = s.prog ∨ s.D.op = .halt ∧ t.prog = rewriteAfter s.prog (idx s.D.pc) := by
  cases hlive : terminated s with
  | true => exact .inl (by rw [step_of_terminated hlive hs])
  | false =>
    by_cases hr : raisesFault s
    · obtain ⟨w, m, ws, ms, -, rfl⟩ := step_raised hlive hr hs
      exact .inl (ms.prog.trans ws.prog)
    · obtain ⟨w, m, e, d, f, ws, ms, hrw, es, ds, fs, rfl⟩ := step_stages hlive hr hs
      have he : e.prog = s.prog := by rw [es.prog, ms.prog, ws.prog]
      rw [State.endCycle_prog, fs.prog, ← he]
      refine ds.prog_cases.imp_right fun ⟨hl, ho, hprog⟩ => ?_
      obtain ⟨b, hD⟩ := D_of_live_after_execute ws ms hrw es hl
      rw [hD] at ho hprog
      exact ⟨ho, hprog⟩

/-! ## The obligations -/

/-- Settles O33, stage by stage. -/
theorem stagesRunTheirOccupants : Obligations.StagesRunTheirOccupants := by
  unfold Obligations.StagesRunTheirOccupants
  refine fun s => ⟨fun hb hs ho => ?_, fun hb hs ho => ?_, fun hs ho h => ?_, fun hb hs ho hm => ?_,
    fun r hb hs ha hr => ?_⟩
  · exact writebackStage_of_live ((Latch.live_iff _).mpr ⟨hb, hs, ho⟩)
  · exact memoryStage_of_live ((Latch.live_iff _).mpr ⟨hb, hs, ho⟩)
  · refine executeStage_of_occupant (Bool.or_eq_true_iff.mpr ?_)
    cases hb : s.E.busy with
    | false => exact .inr ((Latch.live_iff _).mpr ⟨hb, hs, ho⟩)
    | true => exact .inl ((Latch.mulPending_iff _).mpr ⟨h.resolve_left (by simp [hb]), hb, hs⟩)
  · exact decodeStage_of_live ((Latch.mulPending_eq_false_iff _).mpr hm) ((Latch.live_iff _).mpr ⟨hb, hs, ho⟩)
  · exact fetchStage_of_record hb hs ((fetchRecord_eq_some_iff s r).mpr ⟨ha, hr⟩)

/-- Settles O34: the step is the composition of its stages, none of which moves the clock. -/
theorem stepRunsDecodedInstruction : Obligations.StepRunsDecodedInstruction := by
  unfold Obligations.StepRunsDecodedInstruction
  intro s w m hlive hw hm
  have hclock := back_clock (writebackStage_spec hw) (memoryStage_spec hm)
  refine ⟨fun hf => ?_, fun hf e d he hd => ?_⟩
  · rw [step_of_fault hlive hw hm hf, State.endCycle, hclock]
  · have hstep : ∀ f, fetchStage d = .next f → step s = .next { f with clock := s.clock + 1, stage := .writeback } := by
      intro f hff
      have hfront := front_clock (executeStage_spec he) (decodeStage_spec hd) (fetchStage_fields hff)
      rw [step_of_stages hlive hw hm hf he hd hff, State.endCycle, hfront, hclock]
    refine ⟨hstep, fun r hb hs ha hr => ?_⟩
    obtain ⟨f, hff⟩ := fetchStage_next d
    exact ⟨f, (fetchStage_of_record hb hs ((fetchRecord_eq_some_iff d r).mpr ⟨ha, hr⟩)).symm.trans hff, hstep f hff⟩

/-- Settles O35: no stage procedure stops. -/
theorem everyStepAnswersNext : Obligations.EveryStepAnswersNext := by
  unfold Obligations.EveryStepAnswersNext
  exact step_next

/-- Settles O36, by the termination test. -/
theorem clockCountsEveryCycle : Obligations.ClockCountsEveryCycle := by
  unfold Obligations.ClockCountsEveryCycle
  refine fun s t hs => ⟨fun h => step_of_terminated ?_ hs, fun h1 h2 h3 => ?_⟩
  · simpa [terminated, or_assoc] using h
  · exact step_clock ((not_terminated_iff s).mpr ⟨h1, h2, h3⟩) hs

/-- Settles O37: Writeback is the only stage that writes registers and `halted`. -/
theorem onlyRetirementWritesRegisters : Obligations.OnlyRetirementWritesRegisters := by
  unfold Obligations.OnlyRetirementWritesRegisters
  intro s t hlive hs
  obtain ⟨w, ws, hx, hh⟩ := step_x_halted hlive hs
  refine ⟨fun r => ?_, ?_⟩
  · simp only [hx, ws.x]
  · simp [hh, ws.halted]

/-- Settles O38, by whether the cycle raises the fault, redirects, or does neither. -/
theorem countAndPcOfACycle : Obligations.CountAndPcOfACycle := by
  unfold Obligations.CountAndPcOfACycle
  rintro s t retired hlive hs rfl
  refine ⟨fun hr => ?_, fun hr a ha => ?_, fun hr ha => ?_⟩
  · obtain ⟨w, m, ws, ms, -, rfl⟩ := step_raised hlive hr hs
    rw [State.endCycle_pc, State.endCycle_insCompleted]
    exact ⟨ms.pc.trans ws.pc, back_insCompleted ws ms⟩
  · refine ⟨(redirectCycle_of_step hlive hr hs ha).awaits.pc, ?_⟩
    obtain ⟨w, m, e, d, f, ws, ms, -, es, ds, fs, rfl⟩ := step_stages hlive hr hs
    rw [State.endCycle_insCompleted, front_insCompleted ds fs,
      es.insCompleted_of_redirect ((back_redirectsTo ws ms a).mpr ha), back_insCompleted ws ms, back_E ws ms]
  · obtain ⟨w, m, e, d, f, ws, ms, -, es, ds, fs, rfl⟩ := step_stages hlive hr hs
    obtain ⟨hpc, -, -, hcount, -⟩ :=
      es.straight (straight_of_no_redirect fun a => mt (back_redirectsTo ws ms a).mp (ha a))
    have hd : d.pc = s.pc := by rw [ds.pc, hpc, ms.pc, ws.pc]
    rw [State.endCycle_insCompleted, State.endCycle_pc, front_insCompleted ds fs, hcount, back_insCompleted ws ms, ← hd]
    exact ⟨fs.pc_cases, rfl⟩

/-- Settles O39: the only write of the Program Store is the HALT rewrite, which keeps the records up to the HALT. -/
theorem programStoreChangesOnlyByHalt : Obligations.ProgramStoreChangesOnlyByHalt := by
  unfold Obligations.ProgramStoreChangesOnlyByHalt
  refine fun s t hs => ⟨step_length_prog hs, (step_prog hs).imp_right fun ⟨ho, hprog⟩ => ⟨ho, fun k hk => ?_⟩⟩
  rw [hprog, getElem?_rewriteAfter_of_le _ hk]

/-- Settles O40: the cycle is Writeback and the raise. -/
theorem faultCycleIsPrecise : Obligations.FaultCycleIsPrecise := by
  unfold Obligations.FaultCycleIsPrecise
  intro s t hlive hr hs
  obtain ⟨w, m, ws, ms, hrw, rfl⟩ := step_raised hlive hr hs
  obtain ⟨hfault, hfwd, hmem, hF, -, hM, hW⟩ := ms.raised hrw
  rw [ws.M] at hfault
  refine ⟨hfault, fun r => ?_, hmem.trans ws.dmem, hfwd.trans ws.fwd, hF.trans ws.F, ms.E.trans ws.E, hM.trans ws.M,
    hW.trans ws.W, ms.pc.trans ws.pc, ms.prog.trans ws.prog, ms.z.trans ws.z, ms.snapshot.trans ws.snapshot, ?_⟩
  · simp only [State.endCycle_x, ms.x, ws.x]
  · simp [terminated, hfault]

/-! ## The first step after reset -/

/-- The placement of log 4, from reset, changes the Program Store only. -/
theorem withFetchWord_reset {w : Nat} (hw : w < 2 ^ 48) :
    State.reset.withFetchWord 48 w = { State.reset with prog := [BitVec.ofNat 48 w] } := by
  rw [State.withFetchWord, recordOfWord, Nat.mod_eq_of_lt hw]
  rfl

/-- Settles O5: nothing is in flight, so only Fetch has something to do. -/
theorem firstStepFetchesPlacedWord : Obligations.FirstStepFetchesPlacedWord := by
  unfold Obligations.FirstStepFetchesPlacedWord
  intro w hw
  rw [withFetchWord_reset hw]
  generalize BitVec.ofNat 48 w = r
  obtain ⟨haligned, hidx⟩ : aligned Config.pcBase = true ∧ idx Config.pcBase = 0 := by decide
  have hfetched : fetchedLatch ((freshCore false [r]).atStage .decode) = latchOfRecord r 4000 :=
    fetchedLatch_of_record haligned (by simp [freshCore, State.reset, hidx])
  have hff := fetchStage_of_free (s := (freshCore false [r]).atStage .decode) rfl rfl rfl
  rw [hfetched] at hff
  exact step_of_stages (s := freshCore false [r]) (w := (freshCore false [r]).atStage .writeback)
    (m := (freshCore false [r]).atStage .memory) (e := (freshCore false [r]).atStage .execute)
    rfl rfl rfl rfl rfl rfl hff

end Sys2Proof.Machine
end

section
/-! PROOFS. Frames: the states an instruction can answer in each stage, written out once, and from them what it leaves
unchanged (10_state.md R41 to R66, 20_memory.md). -/

namespace Sys2Proof.Machine

open Sys2Proof.Safety

/-! ## The states an instruction answers, stage by stage -/

/-- The states `i` answers in Fetch (40_pipeline.md R177). -/
inductive FetchShape (s : State) : State → Prop where
  | holds : FetchShape s s
  | advances : FetchShape s { s with pc := s.pc + BitVec.ofNat 32 Config.insnWidth, D := s.F }

theorem fetchShape (s : State) : FetchShape s (advanceFetch s) := by
  unfold advanceFetch
  split
  · exact .holds
  · exact .advances

/-- The states `i` answers in Decode (40_pipeline.md R181 to R187, 43_control.md R301, R311, R312). -/
inductive DecodeShape (i : Instr) (s : State) : State → Prop where
  | copies : DecodeShape i s { s with E := s.D }
  | stalls : DecodeShape i s { s with D := { s.D with stalled := true }, E := { s.D with stalled := true } }
  | passes (l : Latch) (p : List Record) (b : BranchPending) (c : Bool)
      (hl : l = { s.D with rs1Value := materialized s (sourceRs1 i), rs2Value := materialized s (sourceRs2 i) })
      (hp : p = s.prog ∨ i = .halt ∧ p.length = s.prog.length)
      (hb : b = s.bp ∨ b = .armed ∧ isBranch i)
      (hc : c = s.snapshot ∨ c = s.z ∧ ((∃ a, i = .bz a) ∨ (∃ a, i = .bnz a) ∧ s.snapshotOnBnz = true)) :
      DecodeShape i s { s with D := l, E := l, prog := p, bp := b, snapshot := c }

theorem decodeShape {i : Instr} {s t : State} (hs : s.stage = .decode) (h : exec i s = .next t) :
    DecodeShape i s t := by
  by_cases hi : i = .nop
  · rw [hi, exec_nop_at_decode hs] at h
    obtain rfl := Host.Outcome.next.inj h
    exact .copies
  by_cases hz : loadUseHazard s i
  · rw [loadUseHazardStalls i s hs hz] at h
    obtain rfl := Host.Outcome.next.inj h
    exact .stalls
  · rw [decodeReadsActsAndPasses i s hi hs hz] at h
    obtain rfl := Host.Outcome.next.inj h
    refine .passes _ _ _ _ rfl ?_ ?_ ?_
    · by_cases hh : i = .halt
      · exact .inr ⟨hh, by rw [if_pos hh]; exact length_rewriteAfter _ _⟩
      · exact .inl (if_neg hh)
    · cases i with
      | bz imm => exact .inr ⟨rfl, .inl ⟨imm, rfl⟩⟩
      | bnz imm => exact .inr ⟨rfl, .inr ⟨imm, rfl⟩⟩
      | _ => exact .inl rfl
    · cases i with
      | bz imm => exact .inr ⟨rfl, .inl ⟨imm, rfl⟩⟩
      | bnz imm =>
        by_cases hp : s.snapshotOnBnz = true
        · exact .inr ⟨if_pos hp, .inr ⟨⟨imm, rfl⟩, hp⟩⟩
        · exact .inl (if_neg hp)
      | _ => exact .inl rfl

/-- The states `i` answers in Execute (41_alu.md, 42_loadstore.md R280 to R282, 43_control.md R305, R313). -/
inductive ExecuteShape (i : Instr) (s : State) : State → Prop where
  | copies : ExecuteShape i s { s with M := s.E }
  | publishes (rd : RegId) (v : Word) (hd : destination i = some rd) (hm : ∀ a b c, i ≠ .mul a b c)
      (hl : ∀ a b c, i ≠ .load a b c) : ExecuteShape i s (published s rd v s.z)
  | publishesZ (rd : RegId) (v : Word) (hd : destination i = some rd)
      (hi : (∃ a b c, i = .add a b c) ∨ (∃ a b c, i = .addi a b c) ∨ ∃ a b c, i = .sub a b c) :
      ExecuteShape i s (published s rd v (decide (v = 0)))
  | mulFirst (rd rs1 rs2 : RegId) (hi : i = .mul rd rs1 rs2) :
      ExecuteShape i s { s with E := { s.E with busy := true }, M := { s.E with busy := true } }
  | mulSecond (rd rs1 rs2 : RegId) (v : Word) (hi : i = .mul rd rs1 rs2) (hb : s.E.busy = true) :
      ExecuteShape i s { s with
        E := { s.E with result := v, busy := false }
        M := { s.E with result := v, busy := false }
        D := { s.D with stalled := false }
        fwd := s.fwd.set rd v
        valid := s.valid.set rd true
        z := decide (v = 0) }
  | load (rd rs1 : RegId) (imm a : Word) (hi : i = .load rd rs1 imm) :
      ExecuteShape i s { s with
        E := { s.E with memAddress := a }, M := { s.E with memAddress := a }, valid := s.valid.set rd true }
  | ldr (rd rs1 rs2 : RegId) (a : Word) (hi : i = .ldr rd rs1 rs2) :
      ExecuteShape i s { s with
        E := { s.E with result := a, memAddress := a }
        M := { s.E with result := a, memAddress := a }
        fwd := s.fwd.set rd a
        valid := s.valid.set rd true }
  | store (a : Word) :
      ExecuteShape i s { s with E := { s.E with memAddress := a }, M := { s.E with memAddress := a } }
  | jumps (t : Word) (hj : isJump i) :
      ExecuteShape i s { s with
        pc := t
        F := { Latch.cleared with stalled := true }
        D := { Latch.cleared with stalled := true }
        E := { s.E with result := t }
        M := { s.E with result := t }
        insCompleted := s.insCompleted + (indexOf t - indexOf s.E.pc - 1) }
  | branches (t : Word) (hb : isBranch i) :
      ExecuteShape i s { s with
        pc := t
        F := Latch.cleared
        D := { Latch.cleared with stalled := true }
        E := { s.E with result := t }
        M := { s.E with result := t }
        bp := .resolved
        insCompleted := s.insCompleted + (indexOf t - indexOf s.E.pc - 1) }
  | defers (t : Word) (b : BranchPending) (hc : isJump i ∨ isBranch i) (hb : b = s.bp ∨ b = .none ∧ isBranch i) :
      ExecuteShape i s { s with
        E := { s.E with result := t, fault := true }, M := { s.E with result := t, fault := true }, bp := b }
  | falls (t : Word) (hb : isBranch i) :
      ExecuteShape i s { s with E := { s.E with result := t }, M := { s.E with result := t }, bp := .none }

theorem executeShape_of_branch {i : Instr} (hi : isBranch i) (taken : Bool) (t : Word) (s : State) :
    ExecuteShape i s (executeBranch taken t s) := by
  cases taken with
  | false => exact .falls t hi
  | true =>
    by_cases ha : targetAccepted s.prog.length t
    · rw [executeBranch_of_accepted ha]
      exact .branches t hi
    · rw [executeBranch_of_rejected ha]
      exact .defers t .none (.inr hi) (.inr ⟨rfl, hi⟩)

theorem executeShape (i : Instr) (s : State) : ExecuteShape i s (executeAction i s) := by
  cases i with
  | movc rd | and rd | or rd | xor rd => exact .publishes rd _ rfl (by simp) (by simp)
  | add rd rs1 rs2 => exact .publishesZ rd _ rfl (.inl ⟨rd, rs1, rs2, rfl⟩)
  | addi rd rs1 imm => exact .publishesZ rd _ rfl (.inr (.inl ⟨rd, rs1, imm, rfl⟩))
  | sub rd rs1 rs2 => exact .publishesZ rd _ rfl (.inr (.inr ⟨rd, rs1, rs2, rfl⟩))
  | mul rd rs1 rs2 =>
    rw [executeAction]
    split
    · next hb => exact .mulSecond rd rs1 rs2 _ rfl hb
    · exact .mulFirst rd rs1 rs2 rfl
  | load rd rs1 imm => exact .load rd rs1 imm _ rfl
  | ldr rd rs1 rs2 => exact .ldr rd rs1 rs2 _ rfl
  | store => exact .store _
  | halt | nop => exact .copies
  | jump rs1 imm =>
    rw [executeAction]
    by_cases ha : targetAccepted s.prog.length (s.E.rs1Value + imm)
    · rw [executeJump_of_accepted ha]
      exact .jumps _ ⟨rs1, imm, rfl⟩
    · rw [executeJump_of_rejected ha]
      exact .defers _ s.bp (.inl ⟨rs1, imm, rfl⟩) (.inl rfl)
  | bz imm => exact executeShape_of_branch (.inl ⟨imm, rfl⟩) _ _ s
  | bnz imm => exact executeShape_of_branch (.inr ⟨imm, rfl⟩) _ _ s

/-- The states `i` answers in Memory (40_pipeline.md R211 to R214, 42_loadstore.md R280 to R284, 43_control.md
R306). -/
inductive MemoryShape (i : Instr) (s : State) : State → Prop where
  | raises (kind : FaultKind) (a : Word) :
      MemoryShape i s { s with fault := { valid := true, kind := kind, pc := s.M.pc, addr := a } }
  | copies : MemoryShape i s { s with W := s.M }
  | loads (rd rs1 : RegId) (imm v : Word) (hi : i = .load rd rs1 imm)
      (hv : v = Memory.read s.dmem s.M.memAddress.toNat) :
      MemoryShape i s { s with
        M := { s.M with result := v }
        W := { s.M with result := v }
        fwd := s.fwd.set rd v
        D := { s.D with stalled := false } }
  | ldr (rd rs1 rs2 : RegId) (v : Word) (hi : i = .ldr rd rs1 rs2)
      (hv : v = Memory.read s.dmem s.M.memAddress.toNat) :
      MemoryShape i s { s with M := { s.M with result := v }, W := { s.M with result := v } }
  | stores (hi : ∃ a b c, i = .store a b c) (hf : s.M.fault = false)
      (ha : s.M.memAddress.toNat < Config.dmemWords) :
      MemoryShape i s { s with W := s.M, dmem := Memory.write s.dmem s.M.memAddress.toNat s.M.rs1Value }
  | releases (hj : isJump i) :
      MemoryShape i s { s with
        W := s.M, F := { s.F with stalled := false }, D := { s.D with stalled := false } }

/-- An access to data raises one of the two faults or does its action. -/
theorem memoryShape_of_access {i : Instr} {s : State} (kind : FaultKind) (action : State → State)
    (h : s.M.fault = false → s.M.memAddress.toNat < Config.dmemWords → MemoryShape i s (leaveMemory (action s))) :
    MemoryShape i s (accessMemory kind action s) := by
  cases hf : s.M.fault with
  | true =>
    rw [accessMemory_of_fault _ _ hf]
    exact .raises _ _
  | false =>
    rcases Nat.lt_or_ge s.M.memAddress.toNat Config.dmemWords with ha | ha
    · rw [accessMemory_of_inRange _ _ hf ha]
      exact h hf ha
    · rw [accessMemory_of_out_of_range _ _ hf ha]
      exact .raises _ _

theorem memoryShape_of_pass {i : Instr} {s : State} (action : State → State)
    (h : MemoryShape i s (leaveMemory (action s))) : MemoryShape i s (passMemory action s) := by
  cases hf : s.M.fault with
  | true =>
    rw [passMemory_of_fault _ hf]
    exact .raises _ _
  | false =>
    rw [passMemory_of_no_fault _ hf]
    exact h

theorem memoryShape (i : Instr) (s : State) : MemoryShape i s (memoryAction i s) := by
  cases i with
  | load rd rs1 imm => exact memoryShape_of_access _ _ fun _ _ => .loads rd rs1 imm _ rfl rfl
  | ldr rd rs1 rs2 => exact memoryShape_of_access _ _ fun _ _ => .ldr rd rs1 rs2 _ rfl rfl
  | store rs1 rs2 imm => exact memoryShape_of_access _ _ fun hf ha => .stores ⟨rs1, rs2, imm, rfl⟩ hf ha
  | jump rs1 imm => exact memoryShape_of_pass _ (.releases ⟨rs1, imm, rfl⟩)
  | nop => exact .copies
  | _ => exact memoryShape_of_pass _ .copies

/-- The states `i` answers in Writeback (40_pipeline.md R221 to R224). -/
inductive WritebackShape (i : Instr) (s : State) : State → Prop where
  | writes (rd : RegId) (v : Vector Bool 16) (hd : destination i = some rd)
      (hv : v = s.valid ∨ s.M.writes rd = false ∧ v = s.valid.set rd false) :
      WritebackShape i s { s with x := s.x.set rd s.W.result, valid := v, insCompleted := s.insCompleted + 1 }
  | counts (h : Bool) (hh : h = s.halted ∨ i = .halt ∧ h = true) :
      WritebackShape i s { s with halted := h, insCompleted := s.insCompleted + 1 }
  | releases (hi : i = .nop) (hb : s.bp = .resolved) :
      WritebackShape i s { s with D := { s.D with stalled := false }, bp := .none }
  | nothing : WritebackShape i s s

theorem writebackShape (i : Instr) (s : State) : WritebackShape i s (writebackAction i s) := by
  cases hd : destination i with
  | some rd =>
    rw [writebackAction_of_writer hd, retireWriter]
    cases hm : s.M.writes rd with
    | true => exact .writes rd _ hd (.inl rfl)
    | false => exact .writes rd _ hd (.inr ⟨hm, rfl⟩)
  | none =>
    by_cases hi : i = .nop
    · subst hi
      show WritebackShape .nop s (bubbleWriteback s)
      unfold bubbleWriteback
      split
      · next hb => exact .releases rfl hb
      · exact .nothing
    · rw [writebackAction_of_no_destination hi hd]
      refine .counts _ ?_
      by_cases hh : i = .halt
      · exact .inr ⟨hh, by simp [hh]⟩
      · exact .inl (by simp [hh])

/-- Everything an instruction can do, by the stage that is evaluated. -/
theorem exec_shape {i : Instr} {s t : State} (h : exec i s = .next t) :
    s.stage = .fetch ∧ FetchShape s t ∨ s.stage = .decode ∧ DecodeShape i s t ∨
      s.stage = .execute ∧ ExecuteShape i s t ∨ s.stage = .memory ∧ MemoryShape i s t ∨
      s.stage = .writeback ∧ WritebackShape i s t := by
  cases hs : s.stage with
  | fetch =>
    rw [exec_at_fetch i hs] at h
    obtain rfl := Host.Outcome.next.inj h
    exact .inl ⟨rfl, fetchShape s⟩
  | decode => exact .inr (.inl ⟨rfl, decodeShape hs h⟩)
  | execute =>
    rw [exec_at_execute i hs] at h
    obtain rfl := Host.Outcome.next.inj h
    exact .inr (.inr (.inl ⟨rfl, executeShape i s⟩))
  | memory =>
    rw [exec_at_memory i hs] at h
    obtain rfl := Host.Outcome.next.inj h
    exact .inr (.inr (.inr (.inl ⟨rfl, memoryShape i s⟩)))
  | writeback =>
    rw [exec_at_writeback i hs] at h
    obtain rfl := Host.Outcome.next.inj h
    exact .inr (.inr (.inr (.inr ⟨rfl, writebackShape i s⟩)))

/-! ## What the shapes of Execute leave -/

/-- A write to a table changes the slot it names only. -/
theorem getElem_set_cases {α : Type} (v : Vector α 16) (rd r : RegId) (a : α) :
    (v.set rd a)[r] = v[r] ∨ rd = r ∧ (v.set rd a)[r] = a := by
  by_cases h : rd = r
  · subst h; exact .inr ⟨rfl, by simp⟩
  · exact .inl (by simp [h, Fin.val_inj])

/-- Execute writes no register, marks only the destination pending, and publishes only its result there. -/
theorem ExecuteShape.tables {i : Instr} {s t : State} (sh : ExecuteShape i s t) :
    t.x = s.x ∧
    (t.valid = s.valid ∨ ∃ rd, destination i = some rd ∧ t.valid = s.valid.set rd true ∧
      ((∀ a b c, i ≠ .mul a b c) ∨ s.E.busy = true)) ∧
    (t.fwd = s.fwd ∨ ∃ rd, destination i = some rd ∧ t.fwd = s.fwd.set rd t.E.result ∧ ∀ a b c, i ≠ .load a b c) := by
  cases sh with
  | publishes rd v hd hm hl => exact ⟨rfl, .inr ⟨rd, hd, rfl, .inl hm⟩, .inr ⟨rd, hd, rfl, hl⟩⟩
  | publishesZ rd v hd hi =>
    refine ⟨rfl, .inr ⟨rd, hd, rfl, .inl ?_⟩, .inr ⟨rd, hd, rfl, ?_⟩⟩ <;> rintro a b c rfl <;> simp at hi
  | mulSecond rd rs1 rs2 v hi hb =>
    exact ⟨rfl, .inr ⟨rd, by rw [hi, destination], rfl, .inr hb⟩, .inr ⟨rd, by rw [hi, destination], rfl, by simp [hi]⟩⟩
  | load rd rs1 imm a hi =>
    exact ⟨rfl, .inr ⟨rd, by rw [hi, destination], rfl, .inl (by simp [hi])⟩, .inl rfl⟩
  | ldr rd rs1 rs2 a hi =>
    exact ⟨rfl, .inr ⟨rd, by rw [hi, destination], rfl, .inl (by simp [hi])⟩,
      .inr ⟨rd, by rw [hi, destination], rfl, by simp [hi]⟩⟩
  | _ => exact ⟨rfl, .inl rfl, .inl rfl⟩

/-- Execute redirects, or leaves the front of the pipeline but for MUL's release of Decode. -/
theorem ExecuteShape.front {i : Instr} {s t : State} (sh : ExecuteShape i s t) :
    t.pc = t.E.result ∧ t.insCompleted = s.insCompleted + (indexOf t.pc - indexOf s.E.pc - 1) ∧
      (isBranch i ∧ t.F = Latch.cleared ∨ isJump i ∧ t.F = { Latch.cleared with stalled := true }) ∧
      t.D = { Latch.cleared with stalled := true } ∨
    t.pc = s.pc ∧ t.insCompleted = s.insCompleted ∧ t.F = s.F ∧
      (t.D = s.D ∨ t.D = { s.D with stalled := false } ∧ s.E.busy = true ∧ ∃ a b c, i = .mul a b c) := by
  cases sh with
  | jumps a hj => exact .inl ⟨rfl, rfl, .inr ⟨hj, rfl⟩, rfl⟩
  | branches a hb => exact .inl ⟨rfl, rfl, .inl ⟨hb, rfl⟩, rfl⟩
  | mulSecond rd rs1 rs2 v hi hb => exact .inr ⟨rfl, rfl, rfl, .inr ⟨rfl, hb, rd, rs1, rs2, hi⟩⟩
  | _ => exact .inr ⟨rfl, rfl, rfl, .inl rfl⟩

/-- Of its latch Execute writes the result, the address, MUL's busy mark and the mark of a rejected target. -/
theorem ExecuteShape.latch {i : Instr} {s t : State} (sh : ExecuteShape i s t) :
    t.E = { s.E with
      result := t.E.result, memAddress := t.E.memAddress, busy := t.E.busy, fault := t.E.fault } ∧
    (t.E.busy = s.E.busy ∨ ∃ a b c, i = .mul a b c) ∧
    (t.E.fault = s.E.fault ∨ t.E.fault = true ∧ (isJump i ∨ isBranch i)) := by
  cases sh with
  | mulFirst rd rs1 rs2 hi => exact ⟨rfl, .inr ⟨rd, rs1, rs2, hi⟩, .inl rfl⟩
  | mulSecond rd rs1 rs2 v hi => exact ⟨rfl, .inr ⟨rd, rs1, rs2, hi⟩, .inl rfl⟩
  | defers a b hc => exact ⟨rfl, .inl rfl, .inr ⟨rfl, hc⟩⟩
  | _ => exact ⟨rfl, .inl rfl, .inl rfl⟩

theorem ExecuteShape.back {i : Instr} {s t : State} (sh : ExecuteShape i s t) :
    t.M = t.E ∧ t.W = s.W ∧ t.fault = s.fault := by
  cases sh <;> exact ⟨rfl, rfl, rfl⟩

/-! ## The obligations -/

/-- Settles O29: the shapes that write a table write the slot of the instruction's destination. -/
theorem frameOfRegisterTables : Obligations.FrameOfRegisterTables := by
  unfold Obligations.FrameOfRegisterTables
  intro i s t h r
  rcases exec_shape h with ⟨hs, sh⟩ | ⟨hs, sh⟩ | ⟨hs, sh⟩ | ⟨hs, sh⟩ | ⟨hs, sh⟩
  · cases sh <;> exact ⟨.inl rfl, .inl rfl, .inl rfl⟩
  · cases sh <;> exact ⟨.inl rfl, .inl rfl, .inl rfl⟩
  · obtain ⟨hx, hvalid, hfwd⟩ := sh.tables
    refine ⟨.inl (by rw [hx]), ?_, ?_⟩
    · rcases hvalid with hv | ⟨rd, hd, hv, hm⟩
      · exact .inl (by rw [hv])
      · rw [hv]
        exact (getElem_set_cases s.valid rd r true).imp_right fun ⟨hr, ht⟩ => .inl ⟨hs, hr ▸ hd, ht, hm⟩
    · rcases hfwd with hv | ⟨rd, hd, hv, hl⟩
      · exact .inl (by rw [hv])
      · rw [hv]
        exact (getElem_set_cases s.fwd rd r t.E.result).imp_right fun ⟨hr, ht⟩ => .inl ⟨hs, hr ▸ hd, ht, hl⟩
  · cases sh with
    | loads rd rs1 imm v hi =>
      exact ⟨.inl rfl, .inl rfl, (getElem_set_cases s.fwd rd r v).imp_right fun ⟨hr, hv⟩ =>
        .inr ⟨hs, hv, rs1, imm, by rw [hi, hr]⟩⟩
    | _ => exact ⟨.inl rfl, .inl rfl, .inl rfl⟩
  · cases sh with
    | writes rd v hd hv =>
      refine ⟨?_, ?_, .inl rfl⟩
      · exact (getElem_set_cases s.x rd r s.W.result).imp_right fun ⟨hr, hx⟩ => ⟨hs, hr ▸ hd, hx⟩
      · rcases hv with rfl | ⟨hm, rfl⟩
        · exact .inl rfl
        · exact (getElem_set_cases s.valid rd r false).imp_right fun ⟨hr, hx⟩ =>
            .inr ⟨hs, hr ▸ hd, hx, hr ▸ hm⟩
    | _ => exact ⟨.inl rfl, .inl rfl, .inl rfl⟩

/-- Settles O30, shape by shape. -/
theorem frameOfFlags : Obligations.FrameOfFlags := by
  unfold Obligations.FrameOfFlags
  intro i s t h
  rcases exec_shape h with ⟨hs, sh⟩ | ⟨hs, sh⟩ | ⟨hs, sh⟩ | ⟨hs, sh⟩ | ⟨hs, sh⟩
  · cases sh <;> exact ⟨.inl rfl, .inl rfl, .inl rfl, .inl rfl⟩
  · cases sh with
    | passes l p b c hl hp hb hc =>
      exact ⟨.inl rfl, hc.imp_right fun ⟨hz, hi⟩ => ⟨hs, hz, hi⟩, hb.imp_right fun ⟨ha, hi⟩ => .inl ⟨hs, ha, hi⟩,
        .inl rfl⟩
    | _ => exact ⟨.inl rfl, .inl rfl, .inl rfl, .inl rfl⟩
  · cases sh with
    | publishesZ rd v hd hi =>
      refine ⟨.inr ⟨hs, rfl, ?_⟩, .inl rfl, .inl rfl, .inl rfl⟩
      exact hi.imp_right fun hi => hi.imp_right .inl
    | mulSecond rd rs1 rs2 v hi hb =>
      exact ⟨.inr ⟨hs, rfl, .inr (.inr (.inr ⟨⟨rd, rs1, rs2, hi⟩, hb⟩))⟩, .inl rfl, .inl rfl, .inl rfl⟩
    | branches t hb => exact ⟨.inl rfl, .inl rfl, .inr (.inr (.inl ⟨hs, by simp, hb⟩)), .inl rfl⟩
    | defers t b hc hb =>
      refine ⟨.inl rfl, .inl rfl, hb.imp_right fun ⟨hn, hi⟩ => .inr (.inl ⟨hs, by simp [hn], hi⟩), .inl rfl⟩
    | falls t hb => exact ⟨.inl rfl, .inl rfl, .inr (.inr (.inl ⟨hs, by simp, hb⟩)), .inl rfl⟩
    | _ => exact ⟨.inl rfl, .inl rfl, .inl rfl, .inl rfl⟩
  · cases sh <;> exact ⟨.inl rfl, .inl rfl, .inl rfl, .inl rfl⟩
  · cases sh with
    | counts b hb => exact ⟨.inl rfl, .inl rfl, .inl rfl, hb.imp_right fun ⟨hi, ht⟩ => ⟨hs, hi, ht⟩⟩
    | releases hi hb => exact ⟨.inl rfl, .inl rfl, .inr (.inr (.inr ⟨hs, hb, rfl, hi⟩)), .inl rfl⟩
    | _ => exact ⟨.inl rfl, .inl rfl, .inl rfl, .inl rfl⟩

/-- Settles O31: only a STORE's shape writes Data Memory, and only HALT's Decode the Program Store. -/
theorem frameOfMemoryAndProgram : Obligations.FrameOfMemoryAndProgram := by
  unfold Obligations.FrameOfMemoryAndProgram
  intro i s t hm h
  rcases exec_shape h with ⟨hs, sh⟩ | ⟨hs, sh⟩ | ⟨hs, sh⟩ | ⟨hs, sh⟩ | ⟨hs, sh⟩
  · cases sh <;> exact ⟨fun a => .inl rfl, .inl rfl, rfl, rfl, rfl⟩
  · cases sh with
    | passes l p b c hl hp hb hc =>
      exact ⟨fun a => .inl rfl, hp.imp_right fun ⟨hi, hlen⟩ => ⟨hs, hi, hlen⟩, rfl, rfl, rfl⟩
    | _ => exact ⟨fun a => .inl rfl, .inl rfl, rfl, rfl, rfl⟩
  · cases sh <;> exact ⟨fun a => .inl rfl, .inl rfl, rfl, rfl, rfl⟩
  · cases sh with
    | stores hi hf ha =>
      refine ⟨fun a => ?_, .inl rfl, rfl, rfl, rfl⟩
      have hread := Memory.read_write s.dmem hm s.M.memAddress.toNat a s.M.rs1Value
      by_cases hb : a = s.M.memAddress.toNat
      · exact .inr ⟨hs, hi, hf, hb, hb ▸ ha, hread.trans (if_pos hb)⟩
      · exact .inl (hread.trans (if_neg hb))
    | _ => exact ⟨fun a => .inl rfl, .inl rfl, rfl, rfl, rfl⟩
  · cases sh <;> exact ⟨fun a => .inl rfl, .inl rfl, rfl, rfl, rfl⟩

/-- Settles O32, stage by stage. -/
theorem frameOfControlAndLatches : Obligations.FrameOfControlAndLatches := by
  unfold Obligations.FrameOfControlAndLatches
  intro i s t h
  rcases exec_shape h with ⟨hs, sh⟩ | ⟨hs, sh⟩ | ⟨hs, sh⟩ | ⟨hs, sh⟩ | ⟨hs, sh⟩
  · cases sh with
    | holds => exact ⟨.inl rfl, .inl rfl, .inl rfl, .inl rfl, .inl rfl, .inl rfl, .inl rfl, .inl rfl⟩
    | advances =>
      exact ⟨.inr (.inl ⟨hs, rfl⟩), .inl rfl, .inl rfl, .inl rfl, .inr (.inl ⟨hs, rfl⟩), .inl rfl, .inl rfl, .inl rfl⟩
  · have hD : t.D = s.D ∨ t.D = { s.D with stalled := true } ∨ t.D = { s.D with
        rs1Value := materialized s (sourceRs1 i), rs2Value := materialized s (sourceRs2 i) } := by
      cases sh with
      | copies => exact .inl rfl
      | stalls => exact .inr (.inl rfl)
      | passes l p b c hl => exact .inr (.inr hl)
    have hE : t.E = t.D := by cases sh <;> rfl
    have hrest : t.pc = s.pc ∧ t.insCompleted = s.insCompleted ∧ t.fault = s.fault ∧ t.F = s.F ∧ t.M = s.M ∧
        t.W = s.W := by
      cases sh <;> exact ⟨rfl, rfl, rfl, rfl, rfl, rfl⟩
    obtain ⟨hpc, hcount, hfault, hF, hM, hW⟩ := hrest
    exact ⟨.inl hpc, .inl hcount, .inl hfault, .inl hF, hD.imp_right fun hD => .inr (.inl ⟨hs, hD⟩),
      .inr (.inl ⟨hs, hE⟩), .inl hM, .inl hW⟩
  · obtain ⟨hM, hW, hfault⟩ := sh.back
    have hE := sh.latch
    rcases sh.front with ⟨hpc, hcount, hF, hD⟩ | ⟨hpc, hcount, hF, hD⟩
    · have hi : isJump i ∨ isBranch i := hF.symm.imp And.left And.left
      exact ⟨.inr (.inr ⟨hs, hpc, hi⟩), .inr (.inr ⟨hs, hcount, hi⟩), .inl hfault, .inr (.inl ⟨hs, hF⟩),
        .inr (.inr (.inr (.inr ⟨hs, hi, hD⟩))), .inr (.inr ⟨hs, hE⟩), .inr (.inl ⟨hs, hM⟩), .inl hW⟩
    · refine ⟨.inl hpc, .inl hcount, .inl hfault, .inl hF, ?_, .inr (.inr ⟨hs, hE⟩), .inr (.inl ⟨hs, hM⟩), .inl hW⟩
      exact hD.imp_right fun ⟨hD, hb, hi⟩ => .inr (.inr (.inl ⟨hD, .inr (.inr ⟨hs, hb, hi⟩)⟩))
  · cases sh with
    | raises kind a =>
      exact ⟨.inl rfl, .inl rfl, .inr ⟨hs, rfl, rfl⟩, .inl rfl, .inl rfl, .inl rfl, .inl rfl, .inl rfl⟩
    | copies | stores =>
      exact ⟨.inl rfl, .inl rfl, .inl rfl, .inl rfl, .inl rfl, .inl rfl, .inl rfl, .inr ⟨hs, rfl⟩⟩
    | loads rd rs1 imm v hi hv =>
      exact ⟨.inl rfl, .inl rfl, .inl rfl, .inl rfl,
        .inr (.inr (.inr (.inl ⟨rfl, .inr (.inl ⟨hs, .inr ⟨rd, rs1, imm, hi⟩⟩)⟩))), .inl rfl,
        .inr (.inr ⟨hs, .inl ⟨rd, rs1, imm, hi⟩, by rw [hv]⟩), .inr ⟨hs, rfl⟩⟩
    | ldr rd rs1 rs2 v hi hv =>
      exact ⟨.inl rfl, .inl rfl, .inl rfl, .inl rfl, .inl rfl, .inl rfl,
        .inr (.inr ⟨hs, .inr ⟨rd, rs1, rs2, hi⟩, by rw [hv]⟩), .inr ⟨hs, rfl⟩⟩
    | releases hj =>
      exact ⟨.inl rfl, .inl rfl, .inl rfl, .inr (.inr ⟨hs, hj, rfl⟩),
        .inr (.inr (.inr (.inl ⟨rfl, .inr (.inl ⟨hs, .inl hj⟩)⟩))), .inl rfl, .inl rfl, .inr ⟨hs, rfl⟩⟩
  · cases sh with
    | writes | counts =>
      exact ⟨.inl rfl, .inr (.inl ⟨hs, rfl⟩), .inl rfl, .inl rfl, .inl rfl, .inl rfl, .inl rfl, .inl rfl⟩
    | releases hi hb =>
      exact ⟨.inl rfl, .inl rfl, .inl rfl, .inl rfl, .inr (.inr (.inr (.inl ⟨rfl, .inl ⟨hs, hi, hb⟩⟩))), .inl rfl,
        .inl rfl, .inl rfl⟩
    | nothing => exact ⟨.inl rfl, .inl rfl, .inl rfl, .inl rfl, .inl rfl, .inl rfl, .inl rfl, .inl rfl⟩

end Sys2Proof.Machine
end

section
/-! PROOFS. Hazards and stalls (70_reset_and_hazards.md): what is passed into `E` behind a LOAD, an LDR and a MUL, and
that every stall of Decode ends. -/

namespace Sys2Proof.Machine

open Sys2Proof.Safety

/-! ## Behind an Execute stage that holds nothing back -/

theorem executeClear_of_not_live {s : State} (hl : s.E.live = false) : executeClear s := by
  refine ⟨fun h => ?_, fun a h => ?_⟩
  · rw [hl] at h; cases h
  · rw [h.1] at hl; cases hl

theorem Latch.live_of_busy {l : Latch} (h : l.busy = true) : l.live = false := by
  simp [Latch.live, h]

theorem Latch.live_of_stalled {l : Latch} (h : l.stalled = true) : l.live = false := by
  simp [Latch.live, h]

theorem Latch.mulPending_of_stalled {l : Latch} (h : l.stalled = true) : l.mulPending = false := by
  simp [Latch.mulPending, h]

theorem ExecuteSpec.F_of_clear {m e : State} (es : ExecuteSpec m e) (h : executeClear m) : e.F = m.F :=
  (es.straight (straight_of_no_redirect h.2)).2.1

/-- Behind a clear Execute, a `D` that is not stalled is passed on, and a free Fetch refills it. -/
theorem not_stalled_of_clear {m e d f : State} (es : ExecuteSpec m e) (ds : DecodeSpec e d) (fs : FetchSpec d f)
    (hc : executeClear m) (hb : m.F.busy = false) (hs : m.F.stalled = false) (hD : e.D.stalled = false) :
    f.D.stalled = false := by
  obtain ⟨hm, hz⟩ := es.decode_not_held hc
  have hdD : d.D.stalled = false := by
    rcases ds.cases with ⟨hm', -⟩ | ⟨-, -, rfl⟩ | ⟨-, -, hz', -⟩ | ⟨-, -, -, hread, -⟩
    · rw [hm] at hm'; cases hm'
    · exact hD
    · exact absurd hz' (hz _)
    · rw [hread]; exact hD
  have hdF : d.F = m.F := ds.F.trans (es.F_of_clear hc)
  rw [(fs.go (by rw [hdF, hb]) (by rw [hdF, hs]) hdD).2.1, fetchedLatch_not_stalled]

/-- An occupant of `D` that a clear Execute follows is passed into `E` live. -/
theorem passed_of_clear {s t : State} (hlive : terminated s = false) (hr : ¬raisesFault s) (hstep : step s = .next t)
    (hd : decodable s) (hc : executeClear s) : t.E.live = true ∧ t.E.instr = s.D.instr := by
  obtain ⟨w, m, e, d, f, ws, ms, hrw, es, ds, fs, rfl⟩ := step_stages hlive hr hstep
  have hD := front_D ws ms hrw es hd hc
  obtain ⟨hm, hz⟩ := es.decode_not_held ((back_executeClear ws ms).mpr hc)
  obtain ⟨hbusy, hop, -⟩ := hd
  have hl : e.D.live = true := (Latch.live_iff _).mpr (by rw [hD]; exact ⟨hbusy, rfl, hop⟩)
  obtain ⟨hread, hcopy, -⟩ := ds.passes hm hl (hz _)
  rw [State.endCycle_E, fs.E, hcopy, hread, hD]
  exact ⟨(Latch.live_iff _).mpr ⟨hbusy, rfl, hop⟩, rfl⟩

/-! ## The cycle that holds the instruction behind a LOAD or a MUL -/

/-- A live occupant of `D` is still in `D` when Decode comes to it, unless Execute redirects. -/
theorem D_of_no_redirect {s w m e : State} (ws : WritebackSpec s w) (ms : MemorySpec w m) (hr : ¬raisesFault w)
    (es : ExecuteSpec m e) (hl : s.D.live = true) (hE : s.E.live = true) (hn : ∀ a, ¬redirectsTo s a) :
    e.D = s.D ∧ e.F = m.F ∧ e.pc = s.pc := by
  obtain ⟨b, hmD, hb, -⟩ := back_D ws ms hr
  obtain ⟨-, hs, -⟩ := (Latch.live_iff _).mp hl
  have hb : b = false := by
    cases b with
    | false => rfl
    | true => rw [hb rfl] at hs; cases hs
  have hm : m.E.mulPending = false := by
    rw [back_E ws ms, Latch.mulPending, ((Latch.live_iff _).mp hE).1]
    simp
  obtain ⟨hpc, hF, hD, -⟩ :=
    es.straight (straight_of_no_redirect fun a => mt (back_redirectsTo ws ms a).mp (hn a))
  refine ⟨?_, hF, by rw [hpc, ms.pc, ws.pc]⟩
  rw [hD, hm, if_neg Bool.false_ne_true, hmD, hb, ← hs]

/-- A Decode stage that stalls `D` behind a free `F` leaves Fetch no move. -/
theorem fetch_held_by_D {s w m e d f : State} (ws : WritebackSpec s w) (ms : MemorySpec w m) (hr : ¬raisesFault w)
    (ds : DecodeSpec e d) (fs : FetchSpec d f) (hb : s.F.busy = false) (hs : s.F.stalled = false)
    (heF : e.F = m.F) (hD : d.D.stalled = true) : f.D = d.D ∧ f.pc = e.pc := by
  have hdF : d.F = m.F := ds.F.trans heF
  obtain ⟨-, h1, h2⟩ := fs.stall (by rw [hdF, back_F_busy ws ms hr, hb])
    (by rw [hdF, back_F_not_stalled ws ms hr (.inl hs)]) hD
  exact ⟨h1, h2.trans ds.pc⟩

theorem no_redirect_of_op {s : State} (h : s.E.op ≠ .jump ∧ s.E.op ≠ .bz ∧ s.E.op ≠ .bnz) : ∀ a, ¬redirectsTo s a := by
  obtain ⟨hj, hz, hnz⟩ := h
  intro a ha
  rcases op_of_redirectsTo ha with ho | ho | ho
  · exact hj ho
  · exact hz ho
  · exact hnz ho

/-- The load-use cycle (40_pipeline.md R183): the consumer stays in `D` stalled, a bubble is in `E`, the LOAD in `M`. -/
theorem loadUse_cycle {s t : State} {r : RegId} (hlive : terminated s = false) (hr : ¬raisesFault s)
    (hstep : step s = .next t) (hb : s.F.busy = false) (hs : s.F.stalled = false) (hD : s.D.live = true)
    (hsrc : sourceRs1 s.D.instr = some r) (hE : s.E.live = true) (ho : s.E.op = .load) (hrd : s.E.rd = r) :
    t.D = { s.D with stalled := true } ∧ t.E.stalled = true ∧ t.pc = s.pc ∧ t.valid[r] = true ∧
      t.M.writes r = true ∧ t.M.op = .load ∧ t.M.memAddress = s.E.rs1Value + s.E.imm := by
  obtain ⟨w, m, e, d, f, ws, ms, hrw, es, ds, fs, rfl⟩ := step_stages hlive hr hstep
  obtain ⟨heD, heF, hpc⟩ := D_of_no_redirect ws ms hrw es hD hE (no_redirect_of_op (by simp [ho]))
  have hmE := back_E ws ms
  have hwrites : e.M.writes r = true :=
    (es.writes_M_iff r).mpr (by rw [hmE]; exact ⟨.inl ⟨hE, by simp [ho]⟩, by simp [ho, writesRegister], hrd⟩)
  have hvalid : e.valid[r] = true := by rw [es.valid, hwrites, Bool.or_true]
  have hop : e.E.op = .load := by rw [es.op, hmE, ho]
  have hz : loadUseHazard e e.D.instr := by
    refine ⟨r, .inl (by rw [heD, hsrc]), hvalid, ?_, hop, by rw [es.rd, hmE, hrd]⟩
    rw [← es.M]
    exact ((Latch.writes_iff _ _).mp hwrites).1
  have hd := ds.hazard (Latch.mulPending_of_op (by simp [hop])) (by rw [heD, hD]) hz
  obtain ⟨hfD, hfpc⟩ := fetch_held_by_D ws ms hrw ds fs hb hs heF (by rw [hd])
  refine ⟨?_, ?_, ?_, ?_, ?_, ?_, ?_⟩
  · rw [State.endCycle_D, hfD, hd, heD]
  · rw [State.endCycle_E, fs.E, hd]
  · rw [State.endCycle_pc, hfpc, hpc]
  · simp only [State.endCycle_valid, fs.valid, ds.valid, hvalid]
  · rw [State.endCycle_M, fs.M, ds.M, hwrites]
  · rw [State.endCycle_M, fs.M, ds.M, es.M, hop]
  · rw [State.endCycle_M, fs.M, ds.M, es.M, (es.address (by rw [hmE, hE])).1 (by rw [hmE, ho]), hmE]

/-- A MUL in its first Execute cycle is marked busy, and that is all (41_alu.md R254). -/
theorem executeStage_of_mul {s : State} (hl : s.E.live = true) (ho : s.E.op = .mul) :
    executeStage s =
      .next { s with E := { s.E with busy := true }, M := { s.E with busy := true }, stage := .execute } := by
  rw [executeStage_of_occupant (by rw [hl, Bool.or_true]), Latch.instr, ho, instrOfFields]
  obtain ⟨-, hfirst, -⟩ := mulTakesTwoExecuteCycles s.E.rd s.E.rs1 s.E.rs2 (s.atStage .execute) _ rfl rfl
  exact hfirst ((Latch.live_iff _).mp hl).1

/-- The stages of a cycle that raises no fault, as equations. -/
theorem step_stage_equations {s t : State} (hlive : terminated s = false) (hr : ¬raisesFault s)
    (h : step s = .next t) :
    ∃ w m e d f, writebackStage s = .next w ∧ memoryStage w = .next m ∧ executeStage m = .next e ∧
      decodeStage e = .next d ∧ fetchStage d = .next f ∧ t = f.endCycle := by
  have hv : s.fault.valid = false := ((not_terminated_iff s).mp hlive).2.2
  cases step_cases h with
  | stopped done _ => rw [hlive] at done; cases done
  | faulted w m _ hw hm hf _ =>
    exact absurd ((memory_fault_iff (writebackStage_spec hw) (memoryStage_spec hm) hv).mp hf) hr
  | completed w m e d f _ hw hm _ he hd hff ht => exact ⟨w, m, e, d, f, hw, hm, he, hd, hff, ht⟩

/-- The first cycle of a MUL (40_pipeline.md R180): the occupant of `D` is held, the MUL stays in `E` busy, and its
copy in `M` is a bubble. -/
theorem mulHold_cycle {s t : State} (hlive : terminated s = false) (hr : ¬raisesFault s) (hstep : step s = .next t)
    (hb : s.F.busy = false) (hs : s.F.stalled = false) (hD : s.D.live = true) (hE : s.E.live = true)
    (ho : s.E.op = .mul) :
    t.D = { s.D with stalled := true } ∧ t.E = { s.E with busy := true } ∧ t.M.live = false ∧ t.pc = s.pc := by
  obtain ⟨w, m, e, d, f, hw, hm, he, hd, hff, rfl⟩ := step_stage_equations hlive hr hstep
  have ws := writebackStage_spec hw
  have ms := memoryStage_spec hm
  have ds := decodeStage_spec hd
  have fs := fetchStage_fields hff
  have hrw : ¬raisesFault w := mt (raisesFault_writeback ws).mp hr
  obtain ⟨heD, heF, hpc⟩ :=
    D_of_no_redirect ws ms hrw (executeStage_spec he) hD hE (no_redirect_of_op (by simp [ho]))
  have hmE := back_E ws ms
  rw [executeStage_of_mul (by rw [hmE, hE]) (by rw [hmE, ho])] at he
  have he := Host.Outcome.next.inj he
  have heE : e.E = { s.E with busy := true } := by rw [← he, hmE]
  have heM : e.M.live = false := by rw [← he]; exact Latch.live_of_busy rfl
  have hheld := ds.holds ((Latch.mulPending_iff _).mpr (by rw [heE]; exact ⟨ho, rfl, ((Latch.live_iff _).mp hE).2.1⟩))
  obtain ⟨hfD, hfpc⟩ := fetch_held_by_D ws ms hrw ds fs hb hs heF (by rw [hheld])
  refine ⟨?_, ?_, ?_, ?_⟩
  · rw [State.endCycle_D, hfD, hheld, heD]
  · rw [State.endCycle_E, fs.E, hheld, heE]
  · rw [State.endCycle_M, fs.M, hheld, heM]
  · rw [State.endCycle_pc, hfpc, hpc]

/-- Behind a MUL in its second cycle `M` is live. -/
theorem live_M_of_mulPending {s t : State} (hlive : terminated s = false) (hr : ¬raisesFault s)
    (hstep : step s = .next t) (hm : s.E.mulPending = true) : t.M.live = true := by
  obtain ⟨w, m, e, d, f, ws, ms, hrw, es, ds, fs, rfl⟩ := step_stages hlive hr hstep
  rw [State.endCycle_M, fs.M, ds.M, es.live_M_iff, back_E ws ms]
  exact .inr hm

/-! ## Release of a stall -/

/-- A MUL in its second cycle, or a release before Execute behind a stalled `E`, leaves Decode not stalled. -/
theorem D_released_of_step {s t : State} (h : stallsHaveSources s) (hlive : terminated s = false)
    (hr : ¬raisesFault s) (hstep : step s = .next t)
    (hrel : s.E.mulPending = true ∨ s.E.stalled = true ∧ releasesDecode s) : t.D.stalled = false := by
  obtain ⟨w, m, e, d, f, ws, ms, hrw, es, ds, fs, rfl⟩ := step_stages hlive hr hstep
  have hmE := back_E ws ms
  have hl : s.E.live = false := by
    rcases hrel with hm | ⟨hs, -⟩
    · exact Latch.live_of_busy ((Latch.mulPending_iff _).mp hm).2.1
    · exact Latch.live_of_stalled hs
  have hc : executeClear m := executeClear_of_not_live (by rw [hmE, hl])
  have hD : e.D.stalled = false := by
    rw [es.D_of_clear hc, hmE]
    rcases hrel with hm | ⟨-, hrel⟩
    · rw [if_pos hm]
    · rw [back_D_of_releases ws ms hrw hrel]
      exact ite_self _ ▸ rfl
  rw [State.endCycle_D]
  exact not_stalled_of_clear es ds fs hc (by rw [back_F_busy ws ms hrw, h.fetchFree])
    (fetchStall_released ws ms hrw h) hD

/-- Behind a resolved branch a cycle that retires something keeps the stall, and moves the older latches on. -/
theorem branchStall_kept {s t : State} (hlive : terminated s = false) (hr : ¬raisesFault s)
    (hstep : step s = .next t) (hD : s.D.stalled = true) (hE : s.E.stalled = true) (hrel : ¬releasesDecode s) :
    t.E.stalled = true ∧ t.bp = s.bp ∧ t.M.live = false ∧ t.W.live = s.M.live := by
  obtain ⟨w, m, e, d, f, ws, ms, hrw, es, ds, fs, rfl⟩ := step_stages hlive hr hstep
  have hmE := back_E ws ms
  obtain ⟨hmD, hmbp⟩ := back_of_not_releases ws ms hrw hrel
  have hl : m.E.live = false := by rw [hmE]; exact Latch.live_of_stalled hE
  have hm : m.E.mulPending = false := by rw [hmE]; exact Latch.mulPending_of_stalled hE
  obtain ⟨-, -, heD, -, hebp⟩ := es.straight (.inl (by rw [transfers, hl, Bool.false_and]))
  rw [hm, if_neg Bool.false_ne_true, hmD] at heD
  have heE : e.E.stalled = true := by rw [es.stalled, hmE, hE]
  have hd := ds.bubble (Latch.mulPending_of_stalled heE) (Latch.live_of_stalled (by rw [heD, hD]))
  refine ⟨?_, ?_, ?_, ?_⟩
  · rw [State.endCycle_E, fs.E, hd, heD, hD]
  · rw [State.endCycle_bp, fs.bp, hd, hebp, hl, if_neg (by simp), hmbp]
  · rw [State.endCycle_M, fs.M, ds.M, es.M]
    exact Latch.live_of_stalled heE
  · rw [State.endCycle_W, fs.W, ds.W, es.W, back_live_W ws ms hrw]

/-- Within `n` steps Decode is not stalled or the core has terminated. -/
def releasedWithin (n : Nat) (s : State) : Prop :=
  ∃ k u, k ≤ n ∧ Host.Core.run Sys2Proof.core k s = .next u ∧ (u.D.stalled = false ∨ terminated u = true)

theorem run_succ_of_step (M : Host.Core) (k : Nat) {s t : M.State} (h : M.step s = .next t) :
    M.run (k + 1) s = M.run k t := by
  simp only [Host.Core.run, h]

theorem releasedWithin_of_now {s : State} (n : Nat) (h : s.D.stalled = false ∨ terminated s = true) :
    releasedWithin n s :=
  ⟨0, s, Nat.zero_le n, rfl, h⟩

theorem releasedWithin_of_step {n : Nat} {s t : State} (hstep : step s = .next t) (h : releasedWithin n t) :
    releasedWithin (n + 1) s := by
  obtain ⟨k, u, hk, hrun, hu⟩ := h
  exact ⟨k + 1, u, Nat.succ_le_succ hk, (run_succ_of_step Sys2Proof.core k hstep).trans hrun, hu⟩

/-- The cycle of a fault ends the run, so only cycles without one can leave Decode stalled. -/
theorem releasedWithin_of_cycle {n : Nat} {s : State}
    (h : s.D.stalled = true → terminated s = false → ¬raisesFault s → ∀ t, step s = .next t → releasedWithin n t) :
    releasedWithin (n + 1) s := by
  cases hD : s.D.stalled with
  | false => exact releasedWithin_of_now _ (.inl hD)
  | true =>
    cases hlive : terminated s with
    | true => exact releasedWithin_of_now _ (.inr hlive)
    | false =>
      obtain ⟨t, ht⟩ := step_next s
      refine releasedWithin_of_step ht ?_
      by_cases hr : raisesFault s
      · obtain ⟨-, -, -, -, -, -, -, -, -, -, -, -, hend⟩ := faultCycleIsPrecise s t hlive hr ht
        exact releasedWithin_of_now _ (.inr hend)
      · exact h hD hlive hr t ht

/-- Behind a resolved branch, with a bubble in `W`, the next cycle releases Decode. -/
theorem releasedWithin_one {s : State} (h : stallsHaveSources s) (hE : s.E.stalled = true) (hb : s.bp = .resolved)
    (hW : s.W.live = false) : releasedWithin 1 s :=
  releasedWithin_of_cycle fun _ hlive hr _ ht =>
    releasedWithin_of_now _ (.inl (D_released_of_step h hlive hr ht (.inr ⟨hE, .inl ⟨hW, hb⟩⟩)))

/-- One instruction fewer ahead of the bubble is one cycle fewer. -/
theorem releasedWithin_succ {n : Nat} {s : State} (h : stallsHaveSources s) (hE : s.E.stalled = true)
    (hb : s.bp = .resolved)
    (hnext : ∀ t, stallsHaveSources t → t.E.stalled = true → t.bp = .resolved → t.M.live = false →
      t.W.live = s.M.live → releasedWithin n t) : releasedWithin (n + 1) s := by
  refine releasedWithin_of_cycle fun hD hlive hr t ht => ?_
  by_cases hrel : releasesDecode s
  · exact releasedWithin_of_now _ (.inl (D_released_of_step h hlive hr ht (.inr ⟨hE, hrel⟩)))
  · obtain ⟨hE', hb', hM, hW⟩ := branchStall_kept hlive hr ht hD hE hrel
    exact hnext t (stepKeepsStallSources s t h ht) hE' (hb'.trans hb) hM hW

theorem releasedWithin_three {s : State} (h : stallsHaveSources s) (hE : s.E.stalled = true)
    (hb : s.bp = .resolved) : releasedWithin 3 s :=
  releasedWithin_succ h hE hb fun _ ht htE htb htM _ =>
    releasedWithin_succ ht htE htb fun _ hu huE hub _ huW => releasedWithin_one hu huE hub (huW.trans htM)

/-! ## The obligations -/

/-- Settles O42: LDR publishes its address in the cycle in which the consumer is decoded, and holds nothing back. -/
theorem ldrConsumerReadsAddress : Obligations.LdrConsumerReadsAddress := by
  unfold Obligations.LdrConsumerReadsAddress
  intro s t r hlive hr hstep hD hFs hFb hsrc hE ho hrd
  obtain ⟨hbusy, hs, hop⟩ := (Latch.live_iff _).mp hD
  have hd : decodable s := ⟨hbusy, hop, by simp [hs]⟩
  have hp : publishes s r (s.E.rs1Value + s.E.rs2Value) :=
    ⟨.inl ⟨hE, by simp [ho]⟩, hrd, by simp [publishedValue, ho]⟩
  have hc := executeClear_of_publishes hp
  refine ⟨(consumerReadsForwardedValue s t r _ hlive hr hstep hd (.inl hp)).1 hsrc, ?_, ?_⟩
  · exact ((Latch.live_iff _).mp (passed_of_clear hlive hr hstep hd hc).1).2.1
  · obtain ⟨w, m, e, d, f, ws, ms, hrw, es, ds, fs, rfl⟩ := step_stages hlive hr hstep
    rw [State.endCycle_D]
    exact not_stalled_of_clear es ds fs ((back_executeClear ws ms).mpr hc) (by rw [back_F_busy ws ms hrw, hFb])
      (back_F_not_stalled ws ms hrw (.inl hFs)) (by rw [front_D ws ms hrw es hd hc])

/-- Settles O43: the held consumer is decoded in the cycle in which the LOAD is in Memory. -/
theorem loadUseCostsOneCycle : Obligations.LoadUseCostsOneCycle := by
  unfold Obligations.LoadUseCostsOneCycle
  intro s t u r hlive hr hstep hb hs hD hsrc hE ho hrd
  obtain ⟨htD, htE, hpc, hvalid, hwrites, hop, haddr⟩ := loadUse_cycle hlive hr hstep hb hs hD hsrc hE ho hrd
  have hl : t.E.live = false := Latch.live_of_stalled htE
  refine ⟨htD, hl, hpc, fun hlt hrt hu => ?_⟩
  obtain ⟨hbusy, -, hnop⟩ := (Latch.live_iff _).mp hD
  have hinstr : t.D.instr = s.D.instr := by rw [htD]; rfl
  have hd : decodable t := by
    refine ⟨by rw [htD, hbusy], by rwa [htD], fun _ => .inr ⟨((Latch.writes_iff _ _).mp hwrites).1, hop⟩⟩
  have hc := executeClear_of_not_live hl
  have hleaves : executeLeaves t r := by
    refine ⟨hc.1, hc.2, fun v hp => ?_⟩
    rcases hp.1 with ⟨hlive', -⟩ | hm
    · rw [hl] at hlive'; cases hlive'
    · rw [Latch.mulPending_of_stalled htE] at hm; cases hm
  obtain ⟨hlu, hiu⟩ := passed_of_clear hlt hrt hu hd hc
  refine ⟨hlu, hiu.trans hinstr, ?_⟩
  rw [← haddr]
  exact (consumerReadsForwardedValue t u r _ hlt hrt hu hd
    (.inr (.inl ⟨hleaves, hvalid, hwrites, hop, rfl⟩))).1 (by rw [hinstr, hsrc])

/-- Settles O44: the held instruction is decoded in the cycle in which the MUL publishes the product. -/
theorem mulHoldsNextInstructionOneCycle : Obligations.MulHoldsNextInstructionOneCycle := by
  unfold Obligations.MulHoldsNextInstructionOneCycle
  intro s t u hlive hr hstep hb hs hD hE ho
  obtain ⟨htD, htE, htM, hpc⟩ := mulHold_cycle hlive hr hstep hb hs hD hE ho
  refine ⟨htD, htE, htM, hpc, fun hlt hu => ?_⟩
  have hrt : ¬raisesFault t := not_raisesFault_of_not_live htM
  have hm : t.E.mulPending = true :=
    (Latch.mulPending_iff _).mpr (by rw [htE]; exact ⟨ho, rfl, ((Latch.live_iff _).mp hE).2.1⟩)
  obtain ⟨hbusy, -, hnop⟩ := (Latch.live_iff _).mp hD
  have hinstr : t.D.instr = s.D.instr := by rw [htD]; rfl
  have hd : decodable t := ⟨by rw [htD, hbusy], by rwa [htD], fun _ => .inl hm⟩
  have hp : publishes t s.E.rd (s.E.rs1Value * s.E.rs2Value) :=
    ⟨.inr hm, by rw [htE], by rw [htE]; simp [publishedValue, ho]⟩
  obtain ⟨hlu, hiu⟩ := passed_of_clear hlt hrt hu hd (executeClear_of_publishes hp)
  refine ⟨hlu, hiu.trans hinstr, live_M_of_mulPending hlt hrt hu hm, fun hsrc => ?_⟩
  exact (consumerReadsForwardedValue t u _ _ hlt hrt hu hd (.inl hp)).1 (by rw [hinstr, hsrc])

/-- Settles O52: every source but a resolved branch releases Decode in the next cycle, and a resolved branch in the
cycle in which the first bubble behind it retires. -/
theorem everyStallEndsWithinThreeCycles : Obligations.EveryStallEndsWithinThreeCycles := by
  unfold Obligations.EveryStallEndsWithinThreeCycles
  intro s h
  suffices hw : s.D.stalled = true → releasedWithin 3 s by
    cases hD : s.D.stalled with
    | false => exact releasedWithin_of_now 3 (.inl hD)
    | true => exact hw hD
  intro hD
  have hnext : s.E.mulPending = true ∨ s.E.stalled = true ∧ releasesDecode s → releasedWithin 3 s := fun hrel =>
    releasedWithin_of_cycle fun _ hlive hr _ ht =>
      releasedWithin_of_now _ (.inl (D_released_of_step h hlive hr ht hrel))
  rcases h.decodeStall hD with hm | ⟨hE, ⟨hl, ho⟩ | ⟨hl, ho, -⟩ | hb⟩
  · exact hnext (.inl hm)
  · exact hnext (.inr ⟨hE, .inr ⟨hl, .inl ho⟩⟩)
  · exact hnext (.inr ⟨hE, .inr ⟨hl, .inr ho⟩⟩)
  · exact releasedWithin_three h hE hb

end Sys2Proof.Machine
end

section
/-! PROOFS. The host's operations (70_reset_and_hazards.md R371, 40_pipeline.md R231 to R234) and the trace of a cycle
(60_exceptions.md R350). -/

namespace Sys2Proof.Machine

open Sys2Proof.Safety

/-! ## Init -/

theorem opcodeOfCode_eq_nop_iff : ∀ c : BitVec 4, opcodeOfCode c = .nop ↔ c.toNat = 15 := by decide

theorem wellFormed_instrOfFields (op : Opcode) (rd rs1 rs2 : RegId) (imm : Word) :
    (instrOfFields op rd rs1 rs2 imm).wellFormed = true ↔ op ≠ .nop := by
  cases op <;> simp [instrOfFields, Instr.wellFormed]

/-- A record decodes to an instruction of R2 exactly when its opcode is not the reserved 15 (R371 (d)). -/
theorem wellFormed_decode_iff (r : Record) : (decode r).wellFormed = true ↔ (r.extractLsb' 44 4).toNat ≠ 15 := by
  rw [decode, wellFormed_instrOfFields, opField, ne_eq, opcodeOfCode_eq_nop_iff]

theorem initFailure_eq_none_iff_checks (p : List Record) :
    initFailure p = none ↔
      Program.nonempty (p.map decode) = true ∧ Program.fits (p.map decode) = true ∧
        Program.unreserved (p.map decode) = true ∧ Program.addressable (p.map decode) = true := by
  simp only [initFailure]
  split_ifs <;> simp_all

theorem initFailure_eq_none_iff (p : List Record) :
    initFailure p = none ↔
      0 < p.length ∧ p.length ≤ Config.progCapacity ∧ (∀ r ∈ p, (r.extractLsb' 44 4).toNat ≠ 15) ∧
        Config.pcBase.toNat + Config.insnWidth * (p.length + 1) < 2 ^ 32 := by
  have hunreserved : Program.unreserved (p.map decode) = true ↔ ∀ r ∈ p, (r.extractLsb' 44 4).toNat ≠ 15 := by
    simp [Program.unreserved, wellFormed_decode_iff]
  rw [initFailure_eq_none_iff_checks, hunreserved, Program.nonempty, Program.fits, Program.addressable,
    decide_eq_true_iff, decide_eq_true_iff, decide_eq_true_iff, List.length_map]

theorem init_ok_iff (b : Bool) (p : List Record) : (∃ s, init b (.records p) = .ok s) ↔ initFailure p = none := by
  rw [init]
  cases initFailure p <;> simp

/-! ## Run -/

theorem run_of_done {b : Nat} {s : State} (h : terminated s = true ∨ b ≤ s.clock) : run b s = .next s := by
  rw [run]
  cases hn : b - s.clock with
  | zero => rfl
  | succ n =>
    have hterm : terminated s = true := h.resolve_right (by omega)
    simp [runFor, hterm]

/-- A cycle uses one of the rounds that are left, and adds 1 to the clock. -/
theorem run_of_step {b : Nat} {s t : State} (hlive : terminated s = false) (hb : s.clock < b)
    (hs : step s = .next t) : run b s = run b t := by
  have hn : b - s.clock = b - t.clock + 1 := by
    rw [step_clock hlive hs]
    omega
  rw [run, hn, runFor, hlive, decide_eq_true hb, hs]
  rfl

/-- Induction along a run: from its end back, one cycle at a time. -/
theorem run_induction {b : Nat} {P : State → Prop} (done : ∀ s, terminated s = true ∨ b ≤ s.clock → P s)
    (cycle : ∀ s t, terminated s = false → s.clock < b → step s = .next t → P t → P s) (s : State) : P s := by
  induction hn : b - s.clock generalizing s with
  | zero => exact done s (.inr (by omega))
  | succ n ih =>
    cases hlive : terminated s with
    | true => exact done s (.inl hlive)
    | false =>
      obtain ⟨t, ht⟩ := step_next s
      exact cycle s t hlive (by omega) ht (ih t (by rw [step_clock hlive ht]; omega))

/-- A run ends terminated or at the budget, and never passes it (R231). -/
theorem run_ends (b : Nat) (s : State) :
    ∃ t, run b s = .next t ∧ (terminated t = true ∨ b ≤ t.clock) ∧ s.clock ≤ t.clock ∧ t.clock ≤ max b s.clock := by
  induction s using run_induction (b := b) with
  | done s h => exact ⟨s, run_of_done h, h, le_rfl, le_max_right _ _⟩
  | cycle s t hlive hb hs ih =>
    obtain ⟨u, hu, hend, hle, hmax⟩ := ih
    have hclock := step_clock hlive hs
    exact ⟨u, (run_of_step hlive hb hs).trans hu, hend, by omega, by omega⟩

theorem run_of_larger_budget {b c : Nat} (hbc : b ≤ c) {s t : State} (h : run b s = .next t) : run c t = run c s := by
  induction s using run_induction (b := b) with
  | done s hd =>
    rw [run_of_done hd] at h
    rw [Host.Outcome.next.inj h]
  | cycle s u hlive hb hs ih =>
    rw [run_of_step hlive hb hs] at h
    rw [run_of_step hlive (lt_of_lt_of_le hb hbc) hs, ih h]

theorem runReport_ending (b : Nat) (m : Mode) (s : State) :
    (runReport b m s).ending =
      if terminated (Outcome.stateOr s (run b s)) = true then .terminated else .endedByBudget := rfl

/-! ## The trace -/

theorem traceRecord_eq_shown (g : Stage) (live : Bool) (l : Latch) : traceRecord g live l = ⟨g, shown live l⟩ := rfl

/-! ## The obligations -/

/-- Settles O53: `Init` accepts exactly when none of the conditions of R371 is met. -/
theorem initRefusesExactlyBadPrograms : Obligations.InitRefusesExactlyBadPrograms := by
  unfold Obligations.InitRefusesExactlyBadPrograms
  exact fun b p => ⟨rfl, (init_ok_iff b p).trans (initFailure_eq_none_iff p)⟩

/-- Settles O55, by induction along the first run. -/
theorem runIsResumableAndIdempotent : Obligations.RunIsResumableAndIdempotent := by
  unfold Obligations.RunIsResumableAndIdempotent
  intro s t b c hbc h
  refine ⟨run_of_larger_budget hbc h, ?_⟩
  rw [run_of_larger_budget le_rfl h, h]

/-- Settles O56, by induction along the run. -/
theorem runEndsTerminatedOrByBudget : Obligations.RunEndsTerminatedOrByBudget := by
  unfold Obligations.RunEndsTerminatedOrByBudget
  intro s b
  obtain ⟨t, ht, hend, hle, hmax⟩ := run_ends b s
  refine ⟨t, ht, hend, hle, hmax, fun m => ?_⟩
  rw [runReport_ending, ht]
  rfl

/-- Settles O57: the trace reads each latch after its stage, and Memory's answer decides how many there are. -/
theorem traceHasOneRecordPerEvaluatedStage : Obligations.TraceHasOneRecordPerEvaluatedStage := by
  unfold Obligations.TraceHasOneRecordPerEvaluatedStage
  intro s w m hlive hw hm
  have ws := writebackStage_spec hw
  have ms := memoryStage_spec hm
  have hfault := memory_fault_iff ws ms ((not_terminated_iff s).mp hlive).2.2
  refine ⟨fun hr => ?_, fun hr e d f he hd hf => ?_⟩
  · obtain ⟨-, -, -, -, -, hM, -⟩ := ms.raised ((raisesFault_writeback ws).mpr hr)
    simp only [cycleTrace, hw, hm, Outcome.stateOr, if_pos (hfault.mpr hr), traceRecord_eq_shown, hM, ws.M, ws.W]
  · simp only [cycleTrace, hw, hm, he, hd, hf, Outcome.stateOr, if_neg (mt hfault.mp hr), traceRecord_eq_shown,
      back_E ws ms, ws.M, ws.W, List.cons_append, List.nil_append]

end Sys2Proof.Machine
end

section
/-! PROOFS. The one-instruction interpreter (70_reset_and_hazards.md R396): what Fetch and Decode make of the record at
the pc with nothing in flight, what Execute adds, and what Memory and Writeback then leave. -/

namespace Sys2Proof.Machine

open Sys2Proof.Safety

/-! ## Fetch and Decode -/

/-- The latch of the instruction `i` fetched at the pc and decoded with nothing in flight. -/
def decodedLatch (i : Instr) (s : State) : Latch :=
  { latchOfRecord (encode i) s.pc with
    rs1Value := materialized (drain s) (sourceRs1 i), rs2Value := materialized (drain s) (sourceRs2 i) }

/-- With no write pending the multiplexer gives the register. -/
@[simp] theorem materialized_drain_some (s : State) (r : RegId) : materialized (drain s) (some r) = s.x[r] := by
  simp [materialized, drain]

theorem instr_latchOfRecord (r : Record) (a : Word) : (latchOfRecord r a).instr = decode r := rfl

theorem live_latchOfRecord {i : Instr} (hi : i ≠ .nop) (a : Word) : (latchOfRecord (encode i) a).live = true := by
  cases i with
  | nop => exact absurd rfl hi
  | _ => simp [Latch.live, latchOfRecord, Latch.cleared, encode]

/-- The state after Fetch and Decode of the instruction `i` alone. -/
structure DecodedAlone (i : Instr) (s d : State) : Prop where
  E : d.E = decodedLatch i s
  pc : d.pc = s.pc + BitVec.ofNat 32 Config.insnWidth
  prog : d.prog = if (decodedLatch i s).op = .halt then rewriteAfter s.prog (idx s.pc) else s.prog
  snapshot : d.snapshot =
    if (decodedLatch i s).op = .bz ∨ (decodedLatch i s).op = .bnz ∧ s.snapshotOnBnz = true then s.z else s.snapshot
  x : d.x = s.x
  dmem : d.dmem = s.dmem
  clock : d.clock = s.clock
  insCompleted : d.insCompleted = s.insCompleted
  halted : d.halted = s.halted
  z : d.z = s.z
  fault : d.fault = s.fault

theorem decodedAlone_of_record {i : Instr} {s : State} (hi : i ≠ .nop) (ha : aligned s.pc = true)
    (hr : s.prog[idx s.pc]? = some (encode i)) :
    ∃ f d, fetchStage (drain s) = .next f ∧ decodeStage f = .next d ∧ DecodedAlone i s d := by
  obtain ⟨f, hff⟩ := fetchStage_next (drain s)
  obtain ⟨d, hd⟩ := decodeStage_next f
  have fs := fetchStage_fields hff
  have ds := decodeStage_spec hd
  obtain ⟨-, hfD, hfpc⟩ := fs.go rfl rfl rfl
  rw [fetchedLatch_of_record (s := drain s) ha hr] at hfD
  have hl : f.E.live = false := by rw [fs.E]; rfl
  have hm : f.E.mulPending = false := by rw [fs.E]; rfl
  have hz : ∀ j, ¬loadUseHazard f j := by
    rintro j ⟨r, -, -, hl', -⟩
    rw [hl] at hl'; cases hl'
  have hmat : ∀ o, materialized f o = materialized (drain s) o := fun o => by
    cases o <;> simp only [materialized, fs.x, fs.valid, fs.fwd]
  obtain ⟨hD, hE, hprog, -, hsnap⟩ := ds.passes hm (by rw [hfD, live_latchOfRecord hi]) (hz _)
  rw [hfD, hmat, hmat, instr_latchOfRecord, decode_encode] at hD
  rw [hfD, fs.prog] at hprog
  rw [hfD, fs.snapshot, fs.z, fs.snapshotOnBnz] at hsnap
  exact ⟨f, d, hff, hd, hE.trans hD, ds.pc.trans hfpc, hprog, hsnap, ds.x.trans fs.x, ds.dmem.trans fs.dmem,
    ds.clock.trans fs.clock, ds.insCompleted.trans fs.insCompleted, ds.halted.trans fs.halted, ds.z.trans fs.z,
    ds.fault.trans fs.fault⟩

theorem live_decodedLatch {i : Instr} (hi : i ≠ .nop) (s : State) : (decodedLatch i s).live = true :=
  live_latchOfRecord hi s.pc

/-! ## Execute -/

/-- Execute of a live occupant alone is one Execute cycle, which for a MUL is its second (40_pipeline.md R200). -/
theorem executeWhole_cases {d : State} (hl : d.E.live = true) :
    ∃ p e, executeWhole d = .next e ∧ executeStage p = .next e ∧
      (p = d ∧ d.E.op ≠ .mul ∨
        d.E.op = .mul ∧
          p = { d with E := { d.E with busy := true }, M := { d.E with busy := true }, stage := .execute }) := by
  obtain ⟨e, he⟩ := executeStage_next d
  by_cases ho : d.E.op = .mul
  · have hmul := executeStage_of_mul hl ho
    obtain ⟨hb, hs, -⟩ := (Latch.live_iff _).mp hl
    have hm : Latch.mulPending { d.E with busy := true } = true := (Latch.mulPending_iff _).mpr ⟨ho, rfl, hs⟩
    obtain ⟨e', he'⟩ := executeStage_next
      { d with E := { d.E with busy := true }, M := { d.E with busy := true }, stage := .execute }
    refine ⟨_, e', ?_, he', .inr ⟨ho, rfl⟩⟩
    rw [executeWhole, hmul, andThen_next, if_pos hm, he']
  · have hm : e.E.mulPending = false := Latch.mulPending_of_op (by rwa [(executeStage_spec he).op])
    refine ⟨d, e, ?_, he, .inl ⟨rfl, ho⟩⟩
    rw [executeWhole, he, andThen_next, hm, if_neg Bool.false_ne_true]

theorem executeWhole_of_single {d : State} (hl : d.E.live = true) (ho : d.E.op ≠ .mul) :
    executeWhole d = executeStage d := by
  obtain ⟨p, e, hwhole, hstage, ⟨rfl, -⟩ | ⟨hmul, -⟩⟩ := executeWhole_cases hl
  · rw [hwhole, hstage]
  · exact absurd hmul ho

/-- The operations that write `Z` from their result (41_alu.md R258). -/
def writesZero (op : Opcode) : Bool := op = .add || op = .addi || op = .sub || op = .mul

/-- Execute writes `Z` for a live ADD, ADDI or SUB and a MUL in its second cycle, from the result (41_alu.md R258). -/
theorem executeStage_z {s t : State} (h : executeStage s = .next t)
    (hp : s.E.live = true ∧ s.E.op ≠ .mul ∨ s.E.mulPending = true) :
    t.z = if writesZero s.E.op = true then decide (t.E.result = 0) else s.z := by
  rw [executeStage_of_occupant (by rw [Bool.or_eq_true]; exact hp.symm.imp_right And.left)] at h
  obtain ⟨hframe, -⟩ := frameOfFlags _ _ _ h
  have hbusy : s.E.op = .mul → s.E.busy = true := fun ho => by
    rcases hp with ⟨-, hmul⟩ | hm
    · exact absurd ho hmul
    · exact ((Latch.mulPending_iff _).mp hm).2.1
  rw [exec_at_execute _ (by simp)] at h
  have ht := Host.Outcome.next.inj h
  cases ho : s.E.op
  case add | addi | sub =>
    rw [← ht, Latch.instr, ho]
    rfl
  case mul =>
    rw [← ht, Latch.instr, ho, instrOfFields, executeAction, State.atStage_E, if_pos (hbusy ho)]
    rfl
  all_goals
    rw [Latch.instr, ho] at hframe
    exact hframe.resolve_right (by simp [instrOfFields])

/-! ## Memory and Writeback -/

/-- The interpreter behind Execute, when Memory raises no fault: the occupant of `M` moved its data and retired. -/
structure RetiredAlone (e t : State) : Prop where
  x : t.x = if writesRegister e.M.op = true then
      e.x.set e.M.rd (if e.M.op = .load ∨ e.M.op = .ldr then loadedWord e else e.M.result)
    else e.x
  dmem : t.dmem = if e.M.op = .store then Memory.write e.dmem e.M.memAddress.toNat e.M.rs1Value else e.dmem
  halted : t.halted = (e.halted || decide (e.M.op = .halt))
  insCompleted : t.insCompleted = e.insCompleted + 1
  fault : t.fault = e.fault
  pc : t.pc = e.pc
  prog : t.prog = e.prog
  z : t.z = e.z
  snapshot : t.snapshot = e.snapshot
  clock : t.clock = e.clock

/-- The interpreter behind Execute, when Memory raises the fault: it is recorded, and nothing is moved or retired
(60_exceptions.md R333). -/
structure FaultedAlone (e t : State) : Prop where
  fault : t.fault =
    { valid := true
      kind := if e.M.fault = true then .controlTarget else if e.M.op = .store then .dataStore else .dataLoad
      pc := e.M.pc
      addr := if e.M.fault = true then e.M.result else e.M.memAddress }
  dmem : t.dmem = e.dmem
  x : t.x = e.x
  halted : t.halted = e.halted
  insCompleted : t.insCompleted = e.insCompleted
  pc : t.pc = e.pc
  prog : t.prog = e.prog
  z : t.z = e.z
  snapshot : t.snapshot = e.snapshot
  clock : t.clock = e.clock

theorem eq_set_of_getElem {α : Type} {v w : Vector α 16} {rd : RegId} {a : α}
    (h : ∀ r : RegId, v[r] = if rd = r then a else w[r]) : v = w.set rd a := by
  apply Vector.ext
  intro k hk
  have hr := h ⟨k, hk⟩
  simp only [Fin.getElem_fin, Fin.ext_iff] at hr
  rw [hr, Vector.getElem_set]

theorem eq_of_getElem {α : Type} {v w : Vector α 16} (h : ∀ r : RegId, v[r] = w[r]) : v = w :=
  Vector.ext fun k hk => h ⟨k, hk⟩

theorem retiredAlone {e : State} (hl : e.M.live = true) (hf : e.fault.valid = false) (hr : ¬raisesFault e) :
    ∃ t, andThen (memoryStage e) retireAlone = .next t ∧ RetiredAlone e t := by
  obtain ⟨m, hm⟩ := memoryStage_next e
  obtain ⟨t, ht⟩ := writebackStage_next (m.setM Latch.cleared)
  have ms := memoryStage_spec hm
  have ws := writebackStage_spec ht
  obtain ⟨hfault, hW, hM, -, hmem, -⟩ := ms.passed hr
  simp only [hl, true_and] at hM hmem
  refine ⟨t, by rw [hm, andThen_next, retireAlone, hfault, hf, if_neg Bool.false_ne_true, ht], ?_⟩
  have hop : m.W.op = e.M.op := by rw [hW, hM]; split <;> rfl
  have hrd : m.W.rd = e.M.rd := by rw [hW, hM]; split <;> rfl
  have hlW : m.W.live = true := by rw [hW, hM]; split <;> exact hl
  have hres : m.W.result = if e.M.op = .load ∨ e.M.op = .ldr then loadedWord e else e.M.result := by
    rw [hW, hM]; split <;> rfl
  have hwrites : ∀ r, m.W.writes r = (writesRegister e.M.op && decide (e.M.rd = r)) := fun r => by
    rw [Latch.writes, hlW, hop, hrd, Bool.true_and]
  refine ⟨?_, ws.dmem.trans hmem, ?_, ?_, ws.fault.trans hfault, ws.pc.trans ms.pc, ws.prog.trans ms.prog,
    ws.z.trans ms.z, ws.snapshot.trans ms.snapshot, ws.clock.trans ms.clock⟩
  · cases hw : writesRegister e.M.op with
    | true =>
      rw [if_pos rfl]
      refine eq_set_of_getElem fun r => ?_
      rw [ws.x r, State.setM_W, hwrites, hw, hres, State.setM_x]
      simp only [ms.x, Bool.true_and, decide_eq_true_eq]
    | false =>
      rw [if_neg Bool.false_ne_true]
      refine eq_of_getElem fun r => ?_
      rw [ws.x r, State.setM_W, hwrites, hw, State.setM_x]
      simp only [ms.x, Bool.false_and, Bool.false_eq_true, if_false]
  · rw [ws.halted, State.setM_halted, State.setM_W, hlW, hop, ms.halted, Bool.true_and]
  · rw [ws.insCompleted, State.setM_insCompleted, State.setM_W, hlW, if_pos rfl, ms.insCompleted]

theorem faultedAlone {e : State} (hr : raisesFault e) :
    ∃ t, andThen (memoryStage e) retireAlone = .next t ∧ FaultedAlone e t := by
  obtain ⟨m, hm⟩ := memoryStage_next e
  have ms := memoryStage_spec hm
  obtain ⟨hfault, -, hmem, -⟩ := ms.raised hr
  refine ⟨m, by rw [hm, andThen_next, retireAlone, hfault, if_pos rfl], ?_⟩
  exact ⟨hfault, hmem, ms.x, ms.halted, ms.insCompleted, ms.pc, ms.prog, ms.z, ms.snapshot, ms.clock⟩

/-! ## One instruction -/

theorem seqStep_of_stages {s f d e : State} (hlive : terminated s = false) (hf : fetchStage (drain s) = .next f)
    (hd : decodeStage f = .next d) (he : executeWhole d = .next e) :
    seqStep s = andThen (memoryStage e) retireAlone := by
  rw [seqStep, hlive, if_neg Bool.false_ne_true, hf, andThen_next, hd, andThen_next, he, andThen_next]

/-- The instruction at the pc, alone: decoded, then executed, then given to Memory and Writeback. -/
theorem seqStep_of_record {i : Instr} {s : State} (hlive : terminated s = false) (hi : i ≠ .nop)
    (ha : aligned s.pc = true) (hr : s.prog[idx s.pc]? = some (encode i)) :
    ∃ d, DecodedAlone i s d ∧ d.E.live = true ∧
      ∀ e, executeWhole d = .next e → seqStep s = andThen (memoryStage e) retireAlone := by
  obtain ⟨f, d, hf, hd, dd⟩ := decodedAlone_of_record hi ha hr
  exact ⟨d, dd, by rw [dd.E, live_decodedLatch hi], fun e he => seqStep_of_stages hlive hf hd he⟩

/-! ## Execute of an instruction alone that transfers no control -/

/-- Execute of an occupant that does not redirect: what it leaves in `M`, and the rest as it was but for `Z`. -/
structure ExecutedAlone (d e : State) : Prop where
  live : e.M.live = true
  op : e.M.op = d.E.op
  rd : e.M.rd = d.E.rd
  opPc : e.M.pc = d.E.pc
  rs1Value : e.M.rs1Value = d.E.rs1Value
  deferred : e.M.fault = d.E.fault
  result : ∀ v, publishedValue d.E = some v → e.M.result = v
  address : (d.E.op = .load → e.M.memAddress = d.E.rs1Value + d.E.imm) ∧
    (d.E.op = .store → e.M.memAddress = d.E.rs2Value + d.E.imm) ∧
    (d.E.op = .ldr → e.M.memAddress = d.E.rs1Value + d.E.rs2Value)
  z : e.z = if writesZero d.E.op = true then decide (e.M.result = 0) else d.z
  x : e.x = d.x
  dmem : e.dmem = d.dmem
  prog : e.prog = d.prog
  pc : e.pc = d.pc
  insCompleted : e.insCompleted = d.insCompleted
  fault : e.fault = d.fault
  halted : e.halted = d.halted
  snapshot : e.snapshot = d.snapshot
  clock : e.clock = d.clock

theorem executedAlone_of_stage {p e : State} (h : executeStage p = .next e)
    (hrun : p.E.live = true ∧ p.E.op ≠ .mul ∨ p.E.mulPending = true) (htr : transfers p = false) :
    ExecutedAlone p e := by
  have es := executeStage_spec h
  have hM := es.M
  obtain ⟨hpc, -, -, hcount, -⟩ := es.straight (.inl htr)
  refine ⟨es.live_M_iff.mpr hrun, by rw [hM, es.op], by rw [hM, es.rd], by rw [hM, es.opPc],
    by rw [hM, es.rs1Value], by rw [hM, es.deferred, htr]; simp, fun v hv => ?_, ?_,
    by rw [hM]; exact executeStage_z h hrun, es.x, es.dmem, es.prog, hpc, hcount, es.fault, es.halted, es.snapshot,
    es.clock⟩
  · rw [hM]
    exact es.result_of_publishes ⟨hrun, rfl, hv⟩
  · rw [hM]
    rcases hrun with ⟨hl, -⟩ | hm
    · exact es.address hl
    · simp [((Latch.mulPending_iff _).mp hm).1]

theorem executedAlone {d : State} (hl : d.E.live = true) (htr : transfers d = false) :
    ∃ e, executeWhole d = .next e ∧ ExecutedAlone d e := by
  obtain ⟨p, e, hwhole, hstage, ⟨rfl, hmul⟩ | ⟨hmul, rfl⟩⟩ := executeWhole_cases hl
  · exact ⟨e, hwhole, executedAlone_of_stage hstage (.inl ⟨hl, hmul⟩) htr⟩
  · have hm : Latch.mulPending { d.E with busy := true } = true :=
      (Latch.mulPending_iff _).mpr ⟨hmul, rfl, ((Latch.live_iff _).mp hl).2.1⟩
    have h := executedAlone_of_stage hstage (.inr hm) (by simp [transfers, hmul])
    exact ⟨e, hwhole, h.live, h.op, h.rd, h.opPc, h.rs1Value, h.deferred, h.result, h.address, h.z, h.x, h.dmem, h.prog,
      h.pc, h.insCompleted, h.fault, h.halted, h.snapshot, h.clock⟩

theorem transfers_of_op {s : State} (h : s.E.op ≠ .jump ∧ s.E.op ≠ .bz ∧ s.E.op ≠ .bnz) : transfers s = false := by
  obtain ⟨hj, hz, hnz⟩ := h
  simp [transfers, hj, hz, hnz]

theorem op_decodedLatch_of_writer {i : Instr} {s : State} (h : writesRegister (decodedLatch i s).op = true) :
    (decodedLatch i s).op ≠ .jump ∧ (decodedLatch i s).op ≠ .bz ∧ (decodedLatch i s).op ≠ .bnz := by
  refine ⟨?_, ?_, ?_⟩ <;> intro ho <;> simp [ho, writesRegister] at h

/-- The operations that access data are the only ones of which Memory checks the address. -/
theorem raisesFault_iff_of_unmarked {e : State} (hl : e.M.live = true) (hf : e.M.fault = false) :
    raisesFault e ↔
      (e.M.op = .load ∨ e.M.op = .ldr ∨ e.M.op = .store) ∧ Config.dmemWords ≤ e.M.memAddress.toNat := by
  simp [raisesFault, hl, hf]

/-! ## A data access alone -/

/-- The effective address of the LOAD, LDR or STORE a latch holds (42_loadstore.md R283). -/
def accessAddress (l : Latch) : Word :=
  if l.op = .load then l.rs1Value + l.imm else if l.op = .ldr then l.rs1Value + l.rs2Value else l.rs2Value + l.imm

/-- LOAD, LDR or STORE alone, from its decoded state `d` to the state `t` it ends in. -/
structure AccessAlone (d t : State) : Prop where
  pc : t.pc = d.pc
  prog : t.prog = d.prog
  z : t.z = d.z
  snapshot : t.snapshot = d.snapshot
  halted : t.halted = d.halted
  clock : t.clock = d.clock
  inRange : (accessAddress d.E).toNat < Config.dmemWords →
    t.insCompleted = d.insCompleted + 1 ∧ t.fault = d.fault ∧
      (d.E.op = .store → t.x = d.x ∧ t.dmem = Memory.write d.dmem (accessAddress d.E).toNat d.E.rs1Value) ∧
      (d.E.op ≠ .store →
        t.x = d.x.set d.E.rd (Memory.read d.dmem (accessAddress d.E).toNat) ∧ t.dmem = d.dmem)
  outOfRange : Config.dmemWords ≤ (accessAddress d.E).toNat →
    t.insCompleted = d.insCompleted ∧ t.x = d.x ∧ t.dmem = d.dmem ∧
      t.fault = {
        valid := true
        kind := if d.E.op = .store then .dataStore else .dataLoad
        pc := d.E.pc
        addr := accessAddress d.E }

theorem accessAlone {d : State} (hl : d.E.live = true) (ho : d.E.op = .load ∨ d.E.op = .ldr ∨ d.E.op = .store)
    (hE : d.E.fault = false) (hf : d.fault.valid = false) :
    ∃ e t, executeWhole d = .next e ∧ andThen (memoryStage e) retireAlone = .next t ∧ AccessAlone d t := by
  have hquiet : d.E.op ≠ .halt ∧ writesZero d.E.op = false ∧ d.E.op ≠ .jump ∧ d.E.op ≠ .bz ∧ d.E.op ≠ .bnz := by
    rcases ho with ho | ho | ho <;> simp [ho, writesZero]
  obtain ⟨hhalt, hwz, hctl⟩ := hquiet
  obtain ⟨e, he, ee⟩ := executedAlone hl (transfers_of_op hctl)
  have haddr : e.M.memAddress = accessAddress d.E := by
    obtain ⟨hload, hstore, hldr⟩ := ee.address
    rcases ho with ho | ho | ho
    · simp [accessAddress, ho, hload ho]
    · simp [accessAddress, ho, hldr ho]
    · simp [accessAddress, ho, hstore ho]
  have hef : e.M.fault = false := ee.deferred.trans hE
  have hez : e.z = d.z := by rw [ee.z, hwz, if_neg Bool.false_ne_true]
  have hraise : raisesFault e ↔ Config.dmemWords ≤ (accessAddress d.E).toNat := by
    rw [raisesFault_iff_of_unmarked ee.live hef, ee.op, haddr]
    exact and_iff_right ho
  by_cases hrange : Config.dmemWords ≤ (accessAddress d.E).toNat
  · obtain ⟨t, ht, ft⟩ := faultedAlone (hraise.mpr hrange)
    refine ⟨e, t, he, ht, ft.pc.trans ee.pc, ft.prog.trans ee.prog, ft.z.trans hez, ft.snapshot.trans ee.snapshot,
      ft.halted.trans ee.halted, ft.clock.trans ee.clock, fun h => absurd h (Nat.not_lt.mpr hrange),
      fun _ => ⟨ft.insCompleted.trans ee.insCompleted, ft.x.trans ee.x, ft.dmem.trans ee.dmem, ?_⟩⟩
    simp only [ft.fault, hef, Bool.false_eq_true, if_false, ee.op, ee.opPc, haddr]
  · obtain ⟨t, ht, rt⟩ := retiredAlone ee.live (by rw [ee.fault, hf]) (mt hraise.mp hrange)
    refine ⟨e, t, he, ht, rt.pc.trans ee.pc, rt.prog.trans ee.prog, rt.z.trans hez, rt.snapshot.trans ee.snapshot,
      by simp [rt.halted, ee.halted, ee.op, hhalt], rt.clock.trans ee.clock,
      fun _ => ⟨by rw [rt.insCompleted, ee.insCompleted], rt.fault.trans ee.fault, fun hs => ?_, fun hs => ?_⟩,
      fun h => absurd h hrange⟩
    · rw [rt.x, rt.dmem, ee.op, hs, if_neg (by simp [writesRegister]), if_pos rfl, haddr, ee.rs1Value, ee.x, ee.dmem]
      exact ⟨rfl, rfl⟩
    · have hload : d.E.op = .load ∨ d.E.op = .ldr := by simpa [hs] using ho
      have hw : writesRegister d.E.op = true := by rcases hload with h | h <;> simp [h, writesRegister]
      rw [rt.x, rt.dmem, ee.op, if_pos hw, if_pos hload, if_neg hs, loadedWord, haddr, ee.dmem]
      simp only [ee.rd, ee.x, and_self]

/-! ## A control transfer alone -/

/-- A control transfer carries its target as its result (43_control.md R305, R313). -/
theorem executeStage_target {s t : State} (h : executeStage s = .next t) (hl : s.E.live = true)
    (ho : s.E.op = .jump ∨ s.E.op = .bz ∨ s.E.op = .bnz) : t.E.result = transferTarget s := by
  rw [executeStage_of_occupant (by rw [hl, Bool.or_true]), exec_at_execute _ (by simp)] at h
  have ht := Host.Outcome.next.inj h
  have hbranch : ∀ taken a, (executeBranch taken a (s.atStage .execute)).E.result = a := fun taken a => by
    cases taken with
    | false => rfl
    | true =>
      by_cases ha : targetAccepted s.prog.length a
      · rw [executeBranch_of_accepted (s := s.atStage .execute) ha]
      · rw [executeBranch_of_rejected (s := s.atStage .execute) ha]
  rcases ho with ho | ho | ho <;> rw [← ht, transferTarget, Latch.instr, ho, instrOfFields, executeAction]
  · rw [if_pos rfl]
    by_cases ha : targetAccepted s.prog.length (s.E.rs1Value + s.E.imm)
    · exact congrArg (fun u => u.E.result) (executeJump_of_accepted (s := s.atStage .execute) ha)
    · exact congrArg (fun u => u.E.result) (executeJump_of_rejected (s := s.atStage .execute) ha)
  · exact hbranch _ _
  · exact hbranch _ _

/-- Execute of a taken control transfer: the pc and the count by whether the target is accepted, else the mark. -/
structure TransferredAlone (d e : State) : Prop where
  live : e.M.live = true
  op : e.M.op = d.E.op
  opPc : e.M.pc = d.E.pc
  result : e.M.result = transferTarget d
  deferred : e.M.fault = (d.E.fault || !validTarget d.prog.length (transferTarget d))
  accepted : targetAccepted d.prog.length (transferTarget d) →
    e.pc = transferTarget d ∧ e.insCompleted = d.insCompleted + (indexOf (transferTarget d) - indexOf d.E.pc - 1)
  rejected : ¬targetAccepted d.prog.length (transferTarget d) → e.pc = d.pc ∧ e.insCompleted = d.insCompleted
  z : e.z = d.z
  x : e.x = d.x
  dmem : e.dmem = d.dmem
  prog : e.prog = d.prog
  fault : e.fault = d.fault
  halted : e.halted = d.halted
  snapshot : e.snapshot = d.snapshot
  clock : e.clock = d.clock

theorem op_of_transfers {s : State} (h : transfers s = true) :
    s.E.live = true ∧ (s.E.op = .jump ∨ s.E.op = .bz ∨ s.E.op = .bnz) := by
  simp only [transfers, Bool.and_eq_true, Bool.or_eq_true, decide_eq_true_iff] at h
  obtain ⟨hl, (ho | ⟨ho, -⟩) | ⟨ho, -⟩⟩ := h <;> simp [hl, ho]

theorem transferredAlone {d : State} (htr : transfers d = true) :
    ∃ e, executeWhole d = .next e ∧ TransferredAlone d e := by
  obtain ⟨hl, ho⟩ := op_of_transfers htr
  obtain ⟨hmul, hwz⟩ : d.E.op ≠ .mul ∧ writesZero d.E.op = false := by
    rcases ho with ho | ho | ho <;> simp [ho, writesZero]
  obtain ⟨e, he⟩ := executeStage_next d
  have es := executeStage_spec he
  have hM := es.M
  have hrun : d.E.live = true ∧ d.E.op ≠ .mul ∨ d.E.mulPending = true := .inl ⟨hl, hmul⟩
  refine ⟨e, (executeWhole_of_single hl hmul).trans he, es.live_M_iff.mpr hrun, by rw [hM, es.op], by rw [hM, es.opPc],
    by rw [hM, executeStage_target he hl ho], by rw [hM, es.deferred, htr, Bool.true_and], fun h => ?_, fun h => ?_,
    by rw [executeStage_z he hrun, hwz, if_neg Bool.false_ne_true], es.x, es.dmem, es.prog, es.fault, es.halted,
    es.snapshot, es.clock⟩
  · obtain ⟨hpc, -, -, hcount, -⟩ := es.redirected htr ((validTarget_iff _ _).mpr h)
    exact ⟨hpc, hcount⟩
  · obtain ⟨hpc, -, -, hcount, -⟩ := es.straight (.inr (by simpa using mt (validTarget_iff _ _).mp h))
    exact ⟨hpc, hcount⟩

/-- The operations that neither move data nor write a register: HALT and the control transfers. -/
def isControl (op : Opcode) : Prop := op = .halt ∨ op = .jump ∨ op = .bz ∨ op = .bnz

/-- A retired HALT or control transfer leaves the registers and Data Memory as Execute left them. -/
theorem RetiredAlone.of_control {e t : State} (rt : RetiredAlone e t) (ho : isControl e.M.op) :
    t.x = e.x ∧ t.dmem = e.dmem := by
  rw [rt.x, rt.dmem]
  rcases ho with ho | ho | ho | ho <;> simp [ho, writesRegister]

/-- A HALT or control transfer raises only a deferred fault. -/
theorem raisesFault_iff_of_control {e : State} (hl : e.M.live = true) (ho : isControl e.M.op) :
    raisesFault e ↔ e.M.fault = true := by
  rw [raisesFault]
  rcases ho with ho | ho | ho | ho <;> simp [hl, ho]

/-- HALT or a control transfer alone, from its decoded state `d` to the state `t` it ends in. -/
structure ControlAlone (d t : State) : Prop where
  x : t.x = d.x
  dmem : t.dmem = d.dmem
  z : t.z = d.z
  halted : t.halted = (d.halted || decide (d.E.op = .halt))
  clock : t.clock = d.clock
  snapshot : t.snapshot = d.snapshot
  prog : t.prog = d.prog
  accepted : transfers d = true → targetAccepted d.prog.length (transferTarget d) →
    t.pc = transferTarget d ∧
      t.insCompleted = d.insCompleted + (indexOf (transferTarget d) - indexOf d.E.pc) ∧ t.fault = d.fault
  rejected : transfers d = true → ¬targetAccepted d.prog.length (transferTarget d) →
    t.pc = d.pc ∧ t.insCompleted = d.insCompleted ∧
      t.fault = { valid := true, kind := .controlTarget, pc := d.E.pc, addr := transferTarget d }
  straight : transfers d = false → t.pc = d.pc ∧ t.insCompleted = d.insCompleted + 1 ∧ t.fault = d.fault

/-- A transfer that is not taken, and HALT, retire. -/
theorem controlAlone_of_straight {d : State} (hl : d.E.live = true) (ho : isControl d.E.op)
    (hE : d.E.fault = false) (hf : d.fault.valid = false) (htr : transfers d = false) :
    ∃ e t, executeWhole d = .next e ∧ andThen (memoryStage e) retireAlone = .next t ∧ ControlAlone d t := by
  obtain ⟨e, he, ee⟩ := executedAlone hl htr
  have hoe : isControl e.M.op := by rwa [ee.op]
  have hraise : ¬raisesFault e := by
    rw [raisesFault_iff_of_control ee.live hoe, ee.deferred, hE]
    exact Bool.false_ne_true
  have hwz : writesZero d.E.op = false := by rcases ho with ho | ho | ho | ho <;> simp [ho, writesZero]
  obtain ⟨t, ht, rt⟩ := retiredAlone ee.live (by rw [ee.fault, hf]) hraise
  obtain ⟨hx, hmem⟩ := rt.of_control hoe
  refine ⟨e, t, he, ht, hx.trans ee.x, hmem.trans ee.dmem, ?_, ?_, rt.clock.trans ee.clock,
    rt.snapshot.trans ee.snapshot, rt.prog.trans ee.prog, by simp [htr], by simp [htr], fun _ => ⟨?_, ?_, ?_⟩⟩
  · rw [rt.z, ee.z, hwz, if_neg Bool.false_ne_true]
  · rw [rt.halted, ee.halted, ee.op]
  · rw [rt.pc, ee.pc]
  · rw [rt.insCompleted, ee.insCompleted]
  · rw [rt.fault, ee.fault]

/-- A taken transfer retires at an accepted target, and raises its fault at another. -/
theorem controlAlone_of_transfer {d : State} (hE : d.E.fault = false) (hf : d.fault.valid = false)
    (htr : transfers d = true) :
    ∃ e t, executeWhole d = .next e ∧ andThen (memoryStage e) retireAlone = .next t ∧ ControlAlone d t := by
  obtain ⟨e, he, ee⟩ := transferredAlone htr
  obtain ⟨-, ho⟩ := op_of_transfers htr
  have hoe : isControl e.M.op := by rw [ee.op]; exact .inr ho
  have hhalt : d.E.op ≠ .halt := by rcases ho with ho | ho | ho <;> simp [ho]
  have hef : e.M.fault = !validTarget d.prog.length (transferTarget d) := by rw [ee.deferred, hE, Bool.false_or]
  have hraise := raisesFault_iff_of_control ee.live hoe
  by_cases ha : targetAccepted d.prog.length (transferTarget d)
  · rw [(validTarget_iff _ _).mpr ha, Bool.not_true] at hef
    obtain ⟨t, ht, rt⟩ := retiredAlone ee.live (by rw [ee.fault, hf]) (by rw [hraise, hef]; exact Bool.false_ne_true)
    obtain ⟨hx, hmem⟩ := rt.of_control hoe
    obtain ⟨hpc, hcount⟩ := ee.accepted ha
    refine ⟨e, t, he, ht, hx.trans ee.x, hmem.trans ee.dmem, rt.z.trans ee.z, ?_, rt.clock.trans ee.clock,
      rt.snapshot.trans ee.snapshot, rt.prog.trans ee.prog,
      fun _ _ => ⟨rt.pc.trans hpc, ?_, rt.fault.trans ee.fault⟩, fun _ h => absurd ha h, by simp [htr]⟩
    · rw [rt.halted, ee.halted, ee.op]
    · rw [rt.insCompleted, hcount]
      omega
  · have hv : validTarget d.prog.length (transferTarget d) = false := by simpa using mt (validTarget_iff _ _).mp ha
    rw [hv, Bool.not_false] at hef
    obtain ⟨t, ht, ft⟩ := faultedAlone (hraise.mpr hef)
    obtain ⟨hpc, hcount⟩ := ee.rejected ha
    refine ⟨e, t, he, ht, ft.x.trans ee.x, ft.dmem.trans ee.dmem, ft.z.trans ee.z, ?_, ft.clock.trans ee.clock,
      ft.snapshot.trans ee.snapshot, ft.prog.trans ee.prog, fun _ h => absurd h ha,
      fun _ _ => ⟨ft.pc.trans hpc, ft.insCompleted.trans hcount, ?_⟩, by simp [htr]⟩
    · simp [ft.halted, ee.halted, hhalt]
    · simp only [ft.fault, hef, if_true, ee.opPc, ee.result]

theorem controlAlone {d : State} (hl : d.E.live = true) (ho : isControl d.E.op) (hE : d.E.fault = false)
    (hf : d.fault.valid = false) :
    ∃ e t, executeWhole d = .next e ∧ andThen (memoryStage e) retireAlone = .next t ∧ ControlAlone d t := by
  cases htr : transfers d with
  | false => exact controlAlone_of_straight hl ho hE hf htr
  | true => exact controlAlone_of_transfer hE hf htr

/-! ## The obligations -/

/-- Settles O58: the instruction publishes its result, which Writeback commits. -/
theorem sequentialAluInstruction : Obligations.SequentialAluInstruction := by
  unfold Obligations.SequentialAluInstruction
  intro s i rd r1 r2 imm v z hlive ha hr hi
  have hdecoded : i ≠ .nop ∧ (decodedLatch i s).rd = rd ∧ (decodedLatch i s).op ≠ .ldr ∧
      publishedValue (decodedLatch i s) = some v ∧
      z = if writesZero (decodedLatch i s).op = true then decide (v = 0) else s.z := by
    rcases hi with ⟨rfl, rfl, rfl⟩ | ⟨rfl, rfl, rfl⟩ | ⟨rfl, rfl, rfl⟩ | ⟨rfl, rfl, rfl⟩ | ⟨rfl, rfl, rfl⟩ |
      ⟨rfl, rfl, rfl⟩ | ⟨rfl, rfl, rfl⟩ | ⟨rfl, rfl, rfl⟩ <;>
      simp [decodedLatch, latchOfRecord, encode, publishedValue, writesZero, sourceRs1, sourceRs2]
  obtain ⟨hnop, hrd, hldr, hv, hz⟩ := hdecoded
  obtain ⟨hw, hload⟩ := op_of_publishedValue hv
  obtain ⟨d, dd, hl, hseq⟩ := seqStep_of_record hlive hnop ha hr
  have hctl := op_decodedLatch_of_writer hw
  rw [← dd.E] at hrd hldr hv hz hw hload hctl
  obtain ⟨e, he, ee⟩ := executedAlone hl (transfers_of_op hctl)
  have hstore : d.E.op ≠ .store := fun ho => by simp [ho, writesRegister] at hw
  have hhalt : d.E.op ≠ .halt := fun ho => by simp [ho, writesRegister] at hw
  have hraise : ¬raisesFault e := by
    rw [raisesFault_iff_of_unmarked ee.live (by rw [ee.deferred, dd.E]; rfl), ee.op]
    simp [hload, hldr, hstore]
  have hvalid : e.fault.valid = false := by
    rw [ee.fault, dd.fault]
    exact ((not_terminated_iff s).mp hlive).2.2
  obtain ⟨t, ht, rt⟩ := retiredAlone ee.live hvalid hraise
  refine ⟨t, (hseq e he).trans ht, ?_, ?_, ?_, ?_, ?_, ?_, ?_, ?_, ?_⟩
  · rw [rt.x, ee.op, if_pos hw, if_neg (by simp [hload, hldr])]
    simp only [ee.rd, hrd, ee.result v hv, ee.x, dd.x]
  · rw [rt.z, ee.z, ee.result v hv, hz, dd.z]
  · rw [rt.dmem, ee.op, if_neg hstore, ee.dmem, dd.dmem]
  · rw [rt.prog, ee.prog, dd.prog, ← dd.E, if_neg hhalt]
  · rw [rt.pc, ee.pc, dd.pc]
  · rw [rt.insCompleted, ee.insCompleted, dd.insCompleted]
  · rw [rt.fault, ee.fault, dd.fault]
  · rw [rt.halted, ee.op, ee.halted, dd.halted]; simp [hhalt]
  · rw [rt.snapshot, ee.snapshot, dd.snapshot, ← dd.E, if_neg (by simp [hctl.2])]

/-- Settles O59: what is left is the operands, and a read of the word a STORE has written. -/
theorem sequentialMemoryInstruction : Obligations.SequentialMemoryInstruction := by
  unfold Obligations.SequentialMemoryInstruction
  intro s i rd r1 r2 imm a hlive hmem ha hr hi
  have hnop : i ≠ .nop := by rcases hi with ⟨rfl, -⟩ | ⟨rfl, -⟩ | ⟨rfl, -⟩ <;> simp
  obtain ⟨d, dd, hl, hseq⟩ := seqStep_of_record hlive hnop ha hr
  have hdecoded : (d.E.op = .load ∨ d.E.op = .ldr ∨ d.E.op = .store) ∧ accessAddress d.E = a ∧ d.E.pc = s.pc ∧
      d.E.fault = false ∧ (d.E.op = .store ↔ destination i = none) ∧
      (destination i = some rd → d.E.rd = rd) ∧ (destination i = none → d.E.rs1Value = s.x[r1]) := by
    rw [dd.E]
    rcases hi with ⟨rfl, rfl⟩ | ⟨rfl, rfl⟩ | ⟨rfl, rfl⟩ <;>
      simp [decodedLatch, latchOfRecord, Latch.cleared, encode, sourceRs1, sourceRs2, destination, accessAddress]
  obtain ⟨hop, rfl, hpc, hE, hstore, hrd, hv⟩ := hdecoded
  have hctl : d.E.op ≠ .halt ∧ d.E.op ≠ .bz ∧ d.E.op ≠ .bnz := by rcases hop with ho | ho | ho <;> simp [ho]
  obtain ⟨hhalt, hbz, hbnz⟩ := hctl
  have hprog : d.prog = s.prog := by rw [dd.prog, ← dd.E, if_neg hhalt]
  have hsnap : d.snapshot = s.snapshot := by rw [dd.snapshot, ← dd.E, if_neg (by simp [hbz, hbnz])]
  obtain ⟨e, t, he, ht, aa⟩ := accessAlone hl hop hE (by rw [dd.fault, ((not_terminated_iff s).mp hlive).2.2])
  refine ⟨t, (hseq e he).trans ht, aa.pc.trans dd.pc, aa.prog.trans hprog, aa.z.trans dd.z,
    aa.snapshot.trans hsnap, aa.halted.trans dd.halted, aa.clock.trans dd.clock, fun hrange => ?_, fun hrange => ?_⟩
  · obtain ⟨hcount, hfault, hst, hld⟩ := aa.inRange hrange
    refine ⟨by rw [hcount, dd.insCompleted], hfault.trans dd.fault, fun hd => ?_, fun hd => ?_⟩
    · obtain ⟨hx, hm⟩ := hld (by rw [ne_eq, hstore, hd]; simp)
      exact ⟨by simp only [hx, hrd hd, dd.x, dd.dmem], hm.trans dd.dmem⟩
    · obtain ⟨hx, hm⟩ := hst (hstore.mpr hd)
      rw [hm, hv hd, dd.dmem]
      exact ⟨hx.trans dd.x, by rw [Memory.read_write _ hmem, if_pos rfl],
        fun b hb => by rw [Memory.read_write _ hmem, if_neg hb]⟩
  · obtain ⟨hcount, hx, hm, hfault⟩ := aa.outOfRange hrange
    exact ⟨hcount.trans dd.insCompleted, hx.trans dd.x, hm.trans dd.dmem, by simp only [hfault, hstore, hpc]⟩

/-- Settles O60, by whether the transfer is taken and its target accepted. -/
theorem sequentialControlInstruction : Obligations.SequentialControlInstruction := by
  unfold Obligations.SequentialControlInstruction
  intro s i r1 imm a taken hlive ha hr hi
  obtain ⟨hh0, -, hf0⟩ := (not_terminated_iff s).mp hlive
  have hnop : i ≠ .nop := by rcases hi with ⟨rfl, -⟩ | ⟨rfl, -⟩ | ⟨rfl, -⟩ | ⟨rfl, -⟩ <;> simp
  obtain ⟨d, dd, hl, hseq⟩ := seqStep_of_record hlive hnop ha hr
  have hop : isControl d.E.op ∧ (d.E.op = .halt ↔ i = .halt) ∧ (d.E.op = .bz ↔ i = .bz imm) ∧
      (d.E.op = .bnz ↔ i = .bnz imm) ∧ (d.E.op = .jump ↔ i = .jump r1 imm) ∧ d.E.fault = false := by
    rw [dd.E]
    rcases hi with ⟨rfl, -⟩ | ⟨rfl, -⟩ | ⟨rfl, -⟩ | ⟨rfl, -⟩ <;>
      simp [decodedLatch, latchOfRecord, encode, isControl, Latch.cleared]
  obtain ⟨hctl, hhalt, hbz, hbnz, hjump, hE⟩ := hop
  have hpc : d.E.pc = s.pc := by rw [dd.E]; rfl
  have hbase : d.E.rs1Value = materialized (drain s) (sourceRs1 i) := by rw [dd.E]; rfl
  have himm : d.E.imm = immField (encode i) := by rw [dd.E]; rfl
  have hsnap := dd.snapshot
  have hprog := dd.prog
  simp only [← dd.E, hhalt, hbz, hbnz] at hsnap hprog
  have htaken : transfers d = taken ∧ (taken = true → transferTarget d = a ∧ d.prog = s.prog) := by
    rcases hi with ⟨rfl, rfl, rfl⟩ | ⟨rfl, rfl, rfl⟩ | ⟨rfl, rfl, rfl⟩ | ⟨rfl, rfl⟩ <;>
      simp [transfers, transferTarget, hl, hjump, hbz, hbnz, hsnap, hprog, hbase, himm, hpc, encode, sourceRs1]
  obtain ⟨htr, htarget⟩ := htaken
  obtain ⟨e, t, he, ht, ct⟩ := controlAlone hl hctl hE (by rw [dd.fault, hf0])
  refine ⟨t, (hseq e he).trans ht, ct.x.trans dd.x, ct.dmem.trans dd.dmem, ct.z.trans dd.z, ?_,
    ct.clock.trans dd.clock, ct.snapshot.trans hsnap, ct.prog.trans hprog, fun h hacc => ?_, fun h hrej => ?_,
    fun h => ?_⟩
  · simp [ct.halted, dd.halted, hh0, hhalt]
  · obtain ⟨rfl, hp⟩ := htarget h
    obtain ⟨h1, h2, h3⟩ := ct.accepted (htr.trans h) (by rwa [hp])
    exact ⟨h1, by rw [h2, dd.insCompleted, hpc], h3.trans dd.fault⟩
  · obtain ⟨rfl, hp⟩ := htarget h
    obtain ⟨h1, h2, h3⟩ := ct.rejected (htr.trans h) (by rwa [hp])
    exact ⟨h1.trans dd.pc, h2.trans dd.insCompleted, by rw [h3, hpc]⟩
  · obtain ⟨h1, h2, h3⟩ := ct.straight (htr.trans h)
    exact ⟨h1.trans dd.pc, by rw [h2, dd.insCompleted], h3.trans dd.fault⟩

end Sys2Proof.Machine
end
